-- ==== Sys2Proof/Word.lean ====
section
/-! DEFINITION. The value types of the block: the byte, the logic level, the phase, the Result Code, the Pulse
Duration and the outcome of one pulse_timer tick. Their bit patterns are in Decode.lean. -/

namespace Sys2Proof

/-- A frame or measurement byte (10_state.md R26, R27). -/
abbrev Byte := BitVec 8

/-- A logic level: LOW is 0 and HIGH is 1 (00_scope.md R7). -/
inductive Level where
  | low
  | high
deriving DecidableEq, Repr, Inhabited

/-- The engine's sequencing register (10_state.md R21), a nine-constructor type as 30_encoding.md R75 and R80
recommend: the reserved codes 9 to 15 cannot be written down. -/
inductive Phase where
  | idle
  | reqLow
  | reqHigh
  | ackLow
  | ackHigh
  | frame
  | decode
  | verify
  | done
deriving DecidableEq, Repr, Inhabited

/-- A Result Code (30_encoding.md R73). The cleared value 0 of the `result` register is the code of Success. -/
inductive ResultCode where
  | success
  | responseReady
  | checksumMismatch
  | timeout
deriving DecidableEq, Repr, Inhabited

/-- A Pulse Duration (30_encoding.md R74): a tick count, or the sentinel. -/
inductive PulseDuration where
  | count (n : Nat)
  | timeout
deriving DecidableEq, Repr, Inhabited

/-- The outcome of `pt_step` (40_pulse_timer.md R102): `Continue(c)`, `Done(c)` or `TimedOut`. -/
inductive PtOutcome where
  | continues (c : Nat)
  | done (c : Nat)
  | timedOut
deriving DecidableEq, Repr, Inhabited

/-- The two failures of a read (60_exceptions.md R160). -/
inductive Failure where
  | timeout
  | checksumMismatch
deriving DecidableEq, Repr

end Sys2Proof
end

