-- ==== Sys2Proof/Config.lean ====
section
/-! DEFINITION. The implementation parameters (00_scope.md R5), the inputs sampled at one tick (10_state.md R33,
30_encoding.md R72), and the free values the spec leaves open. -/

namespace Sys2Proof

/-- The configuration record of 00_scope.md R5. `tTickUs` (`T_TICK_US`) is read by no rule of the model. -/
structure Config where
  tTickUs : Nat
  ceiling : Nat
  reqLowTicks : Nat
  reqHighTicks : Nat
  dw : Nat
  dlw : Nat
deriving DecidableEq, Repr, Inhabited

/-- The defaults of 00_scope.md R5. -/
def Config.default : Config :=
  { tTickUs := 10, ceiling := 100, reqLowTicks := 2000, reqHighTicks := 5, dw := 8, dlw := 11 }

/-- What the block samples at one tick: the ports `rst`, `start` and `pin_in` (10_state.md R33), and the command
port of the pulse_timer unit, `pt_start` and `pt_level` (40_pulse_timer.md R104). -/
structure Inputs where
  rst : Bool
  start : Bool
  pinIn : Level
  ptStart : Bool
  ptLevel : Level
deriving DecidableEq, Repr, Inhabited

/-- The inputs where a script says nothing (30_encoding.md R82): no reset, no command, the pulled-up line HIGH. -/
def Inputs.quiet : Inputs :=
  { rst := false, start := false, pinIn := .high, ptStart := false, ptLevel := .low }

/-- FREE VALUE (log 2). The inputs at a tick beyond the listed ones: the environment is under no law
(00_scope.md R10), so nothing is known of them. -/
opaque Config.freeInputs : Nat → Inputs

/-- FREE VALUE (log 11). `pt_timeout` at a tick where `pt_done = 0` (93_implementation_defined.md U12). -/
opaque Config.freePtTimeout : Nat → Bool

/-- FREE VALUE (log 11). `pt_dur` at a tick where `pt_done = 0` (93_implementation_defined.md U12). -/
opaque Config.freePtDur : Nat → Nat

end Sys2Proof
end

