-- ==== Sys2Proof/Syntax.lean ====
section
/-! DEFINITION. The operations: one constructor per row of spec/opcode_table.json, and the ports they appear on. -/

namespace Sys2Proof

/-- The four formats whose bit patterns select a row of the table (30_encoding.md R70). Each has a port of its own,
and no two formats share a port (R81). -/
inductive Port where
  | cmd
  | ptcmd
  | phase
  | res
deriving DecidableEq, Repr

/-- The operations (30_encoding.md R84), and the four responses the table lists with them. -/
inductive Instr where
  /-- `READ`, format CMD (41_protocol_engine.md R120). -/
  | read
  /-- `NOP`, format CMD: no command (41_protocol_engine.md R122). -/
  | nop
  /-- `MEASURE_LEVEL L`, format PTCMD (40_pulse_timer.md R101). -/
  | measureLevel (level : Level)
  /-- `PT_NOP`, format PTCMD: no command; its bit 0 is carried and ignored (30_encoding.md R72). -/
  | ptNop (ignored : Level)
  /-- `IDLE`, format PHASE (41_protocol_engine.md R122). -/
  | idle
  /-- `REQ_LOW`, format PHASE (41_protocol_engine.md R123). -/
  | reqLow
  /-- `REQ_HIGH`, format PHASE (41_protocol_engine.md R124). -/
  | reqHigh
  /-- `ACK_LOW`, format PHASE (41_protocol_engine.md R125). -/
  | ackLow
  /-- `ACK_HIGH`, format PHASE (41_protocol_engine.md R126). -/
  | ackHigh
  /-- `FRAME`, format PHASE (41_protocol_engine.md R127). -/
  | frame
  /-- `DECODE`, format PHASE (41_protocol_engine.md R129). -/
  | decode
  /-- `VERIFY`, format PHASE (41_protocol_engine.md R130). -/
  | verify
  /-- `DONE`, format PHASE (41_protocol_engine.md R131). -/
  | done
  /-- `RES_SUCCESS`, format RES: the response Success, written by 41_protocol_engine.md R130. -/
  | resSuccess
  /-- `RES_RESPONSE_READY`, format RES: the response ResponseReady, written by 41_protocol_engine.md R126. -/
  | resResponseReady
  /-- `RES_CHECKSUM_MISMATCH`, format RES: the response ChecksumMismatch, written by 41_protocol_engine.md R130. -/
  | resChecksumMismatch
  /-- `RES_TIMEOUT`, format RES: the response Timeout, written by 41_protocol_engine.md R128. -/
  | resTimeout
deriving DecidableEq, Repr

end Sys2Proof
end

