-- ==== Sys2Proof/WellFormed.lean ====
section
/-! DEFINITION. Well-formedness: of an operation, of a Pulse Duration (30_encoding.md R74, R80) and of a configuration
(00_scope.md R6; 92_eei_decisions.md D22). -/

namespace Sys2Proof

/-- Every operation written as an `Instr` is well formed: the only operands are one-bit levels, and both values of
each are legal (30_encoding.md R72). -/
def Instr.wellFormed : Instr → Bool
  | .read | .nop | .measureLevel _ | .ptNop _ => true
  | .idle | .reqLow | .reqHigh | .ackLow | .ackHigh | .frame | .decode | .verify | .done => true
  | .resSuccess | .resResponseReady | .resChecksumMismatch | .resTimeout => true

/-- A Pulse Duration the unit can produce: `Count(n)` has `n <= CEILING` (30_encoding.md R74). -/
def PulseDuration.wellFormed (ceiling : Nat) : PulseDuration → Bool
  | .count n => decide (n ≤ ceiling)
  | .timeout => true

/-- The bits `pt_timeout`, `pt_dur` of a Pulse Duration, as the table of 30_encoding.md R74 allows them; R80 says the
other combinations are never produced. -/
def durBitsWellFormed (ceiling : Nat) (timeout : Bool) (dur : Nat) : Bool :=
  if timeout then decide (dur = ceiling + 1) else decide (dur ≤ ceiling)

/-- The parameters for which the rules are written (92_eei_decisions.md D22): the three counts positive and the
width constraints of 00_scope.md R6 met. A test fixture meets this much. -/
abbrev Config.Runnable (c : Config) : Prop :=
  1 ≤ c.ceiling ∧ 1 ≤ c.reqLowTicks ∧ 1 ≤ c.reqHighTicks ∧ c.ceiling + 2 ≤ 2 ^ c.dw ∧
    max c.reqLowTicks c.reqHighTicks ≤ 2 ^ c.dlw

/-- A configuration of this hardware (00_scope.md R6, all of its constraints). -/
abbrev Config.WellFormed (c : Config) : Prop :=
  100 ≤ c.ceiling ∧ 1000 ≤ c.ceiling * c.tTickUs ∧ 18000 ≤ c.reqLowTicks * c.tTickUs ∧
    40 ≤ c.reqHighTicks * c.tTickUs ∧ c.Runnable

end Sys2Proof
end

