-- ==== Sys2Proof/Decode.lean ====
section
/-! DEFINITION. The decoder of the block's ports, total on any word, rejecting by name; the encoder, written from the
same tables (30_encoding.md R71 to R75, opcode_table.json); and the bit patterns of levels, phases and Result Codes. -/

namespace Sys2Proof

/-- Why a word on a port selects no row. -/
inductive DecodeError where
  /-- The word has a bit above the port's width: it cannot stand on that port (30_encoding.md R70). -/
  | wordTooWide (port : Port) (w : Nat)
  /-- A reserved phase code, 9 to 15 (30_encoding.md R75, R80). -/
  | reservedPhase (w : Nat)
deriving DecidableEq, Repr

/-- LOW is 0 and HIGH is 1 (00_scope.md R7). -/
def Level.bit : Level → Nat
  | .low => 0
  | .high => 1

/-- The level of a bit: bit 0 of the given number. -/
def Level.ofBit (n : Nat) : Level := if n % 2 = 1 then .high else .low

/-- The opposite level. -/
def Level.flip : Level → Level
  | .low => .high
  | .high => .low

/-- The number on the `phase` register (30_encoding.md R75). -/
def Phase.code : Phase → Nat
  | .idle => 0
  | .reqLow => 1
  | .reqHigh => 2
  | .ackLow => 3
  | .ackHigh => 4
  | .frame => 5
  | .decode => 6
  | .verify => 7
  | .done => 8

/-- The phase of a 4-bit code; the codes 9 to 15 are reserved (30_encoding.md R75). -/
def phaseOfCode : Nat → Option Phase
  | 0 => some .idle
  | 1 => some .reqLow
  | 2 => some .reqHigh
  | 3 => some .ackLow
  | 4 => some .ackHigh
  | 5 => some .frame
  | 6 => some .decode
  | 7 => some .verify
  | 8 => some .done
  | _ => none

/-- The number on the `result` port (30_encoding.md R73). -/
def ResultCode.code : ResultCode → Nat
  | .success => 0
  | .responseReady => 1
  | .checksumMismatch => 2
  | .timeout => 3

/-- The width of each port in bits (30_encoding.md R70). -/
def Port.width : Port → Nat
  | .cmd => 1
  | .ptcmd => 2
  | .phase => 4
  | .res => 2

/-- The micro-operation a phase selects (30_encoding.md R75). -/
def microOp : Phase → Instr
  | .idle => .idle
  | .reqLow => .reqLow
  | .reqHigh => .reqHigh
  | .ackLow => .ackLow
  | .ackHigh => .ackHigh
  | .frame => .frame
  | .decode => .decode
  | .verify => .verify
  | .done => .done

/-- Format CMD: the bit `start` (30_encoding.md R71). -/
def decodeCmd (w : Nat) : Instr := if w % 2 = 1 then .read else .nop

/-- Format PTCMD: bit 1 is `pt_start`, bit 0 is `pt_level` (30_encoding.md R72). -/
def decodePtCmd (w : Nat) : Instr :=
  if w / 2 % 2 = 1 then .measureLevel (Level.ofBit w) else .ptNop (Level.ofBit w)

/-- Format PHASE (30_encoding.md R75). -/
def decodePhase (w : Nat) : Except DecodeError Instr :=
  match phaseOfCode w with
  | some p => .ok (microOp p)
  | none => .error (.reservedPhase w)

/-- Format RES (30_encoding.md R73). -/
def decodeRes (w : Nat) : Instr :=
  match w with
  | 0 => .resSuccess
  | 1 => .resResponseReady
  | 2 => .resChecksumMismatch
  | _ => .resTimeout

/-- The decoder: the row that a word selects on a port (30_encoding.md R84, R81). -/
def decode (p : Port) (w : Nat) : Except DecodeError Instr :=
  if w < 2 ^ p.width then
    match p with
    | .cmd => .ok (decodeCmd w)
    | .ptcmd => .ok (decodePtCmd w)
    | .phase => decodePhase w
    | .res => .ok (decodeRes w)
  else .error (.wordTooWide p w)

/-- The encoder: the port an operation appears on, and its word there (the `encoding` column of the table). -/
def encode : Instr → Port × Nat
  | .read => (.cmd, 1)
  | .nop => (.cmd, 0)
  | .measureLevel l => (.ptcmd, 2 + l.bit)
  | .ptNop x => (.ptcmd, x.bit)
  | .idle => (.phase, 0)
  | .reqLow => (.phase, 1)
  | .reqHigh => (.phase, 2)
  | .ackLow => (.phase, 3)
  | .ackHigh => (.phase, 4)
  | .frame => (.phase, 5)
  | .decode => (.phase, 6)
  | .verify => (.phase, 7)
  | .done => (.phase, 8)
  | .resSuccess => (.res, 0)
  | .resResponseReady => (.res, 1)
  | .resChecksumMismatch => (.res, 2)
  | .resTimeout => (.res, 3)

/-- The port a table word of `nbits` bits is read on (log 8). The table's rows of one bit are CMD, of two bits PTCMD
(or RES, a response no decoder of the block reads), of four bits PHASE; rounded up to a whole byte the widths no
longer tell the ports apart, and the word is read on the port that plays the opcode's part, `phase` (30_encoding.md
R75). -/
def portOfWidth (nbits : Nat) : Port :=
  match nbits with
  | 1 => .cmd
  | 2 => .ptcmd
  | _ => .phase

/-- The operation this decoder reads from a word of the opcode table. -/
def decodeTableWord (nbits w : Nat) : Option Instr :=
  match decode (portOfWidth nbits) w with
  | .ok i => some i
  | .error _ => none

end Sys2Proof
end

