-- ==== Sys2Proof/Machine/State.lean ====
section
/-! DEFINITION. The state, its value after reset, and the reasons a step can stop. -/

namespace Sys2Proof.Machine

/-- There is no fault: the block never traps, hangs or enters an undefined state (00_scope.md R10; 60_exceptions.md
R160), so the type has no constructor. The failures Timeout and ChecksumMismatch are results, not faults. -/
inductive Fault where
deriving DecidableEq, Repr

/-- Why `exec` or `step` has no meaning to give. -/
inductive Refusal where
  /-- Raised by `exec` for an operation with no meaning in the model (safe). No arm of `exec` raises it. -/
  | notModelled (mnemonic : String)
  /-- Raised by `step` if a word on a port selects no operation (safe). No state raises it: the phase register holds
  one of the nine phases (30_encoding.md R80) and every PTCMD word selects an operation. -/
  | undecodable (e : DecodeError)
deriving DecidableEq, Repr

/-- Who drives the command port of the pulse_timer unit (log 4). -/
inductive UnitPort where
  /-- The engine, by the table of 41_protocol_engine.md R133: the unit is the block's own timer. -/
  | engine
  /-- An outside driver, through `pt_start` and `pt_level`: the unit alone (40_pulse_timer.md R104). -/
  | bench
deriving DecidableEq, Repr

end Sys2Proof.Machine

open Sys2Proof

namespace Sys2Proof.Machine

/-- The state: the nine items of 10_state.md R20, the unit's three of R31, and what the step relation takes
beside them (R37). -/
structure State where
  /-- 00_scope.md R5. No step writes it. -/
  cfg : Config
  /-- Who drives the unit's command port (log 4). No step writes it. -/
  unitPort : UnitPort
  /-- `phase` (10_state.md R21). -/
  phase : Phase
  /-- `delay_cnt` (10_state.md R22). -/
  delayCnt : Nat
  /-- `pt_count` (10_state.md R23). -/
  ptCount : Nat
  /-- `meas_idx` (10_state.md R24). -/
  measIdx : Fin 80
  /-- `dur[0..79]` (10_state.md R25). -/
  dur : Vector Nat 80
  /-- `frame[0..4]` (10_state.md R26). -/
  frame : Vector Byte 5
  /-- `meas[0..3]` (10_state.md R27). -/
  meas : Vector Byte 4
  /-- `meas_valid` (10_state.md R28). -/
  measValid : Bool
  /-- `result` (10_state.md R29). -/
  result : ResultCode
  /-- `pt_busy` of the unit (10_state.md R31). -/
  unitBusy : Bool
  /-- `pt_exp` of the unit (10_state.md R31). -/
  unitExp : Level
  /-- `pt_count` of the unit (10_state.md R31). -/
  unitCount : Nat
  /-- The inputs still to be sampled, the current tick's first (log 2). -/
  inputs : List Inputs
  /-- The index of the current tick, to which the free values are applied (log 2). -/
  tick : Nat
deriving DecidableEq, Repr

/-- The machine right after reset (10_state.md R36, R31; 70_reset_and_hazards.md R181). `dur` is the model's choice
(log 3), and so are `unitPort`, `inputs` and `tick` (logs 2 and 4). -/
def State.reset : State where
  cfg := Config.default
  unitPort := .engine
  phase := .idle
  delayCnt := 0
  ptCount := 0
  measIdx := 0
  dur := Vector.replicate 80 0
  frame := #v[0, 0, 0, 0, 0]
  meas := #v[0, 0, 0, 0]
  measValid := false
  result := .success
  unitBusy := false
  unitExp := .low
  unitCount := 0
  inputs := []
  tick := 0

end Sys2Proof.Machine
end

