-- ==== Sys2Proof/Machine/Ops.lean ====
section
/-! DEFINITION. The shared operations: sampling the inputs, the pulse_timer's one-tick step, accepting a read, the
abort of a failed read and the way out of it, reset, the unit's tick, storing a duration, and moving to the next
tick. -/

namespace Sys2Proof.Machine

/-- The inputs at the tick `j` ticks from now: the listed ones, and beyond the list a free value (log 2). -/
def State.inputAt (s : State) (j : Nat) : Inputs :=
  s.inputs[j]?.getD (Config.freeInputs (s.tick + j))

/-- The inputs sampled at the current tick (00_scope.md R9). -/
def State.now (s : State) : Inputs := s.inputAt 0

/-- `PinSample()`: the level of `pin_in` at the current tick (20_memory.md R52). -/
def State.pinSample (s : State) : Level := s.now.pinIn

/-- `pt_step(L, c, s)` (40_pulse_timer.md R102): the level test first, then the ceiling test, then the count. -/
def ptStep (ceiling : Nat) (expected : Level) (c : Nat) (sample : Level) : PtOutcome :=
  if sample ≠ expected then .done c
  else if c = ceiling then .timedOut
  else .continues (c + 1)

/-- `accept_read` (41_protocol_engine.md R122): the start of a read. It is also the way out of a failed read
(60_exceptions.md R167). `result <- 0` is the code of Success (log 10). -/
def State.acceptRead (s : State) : State :=
  { s with
    phase := .reqLow
    delayCnt := 0
    measIdx := 0
    result := .success
    measValid := false
    meas := #v[0, 0, 0, 0] }

/-- The abort of a read (60_exceptions.md R166): `raise Timeout` (41_protocol_engine.md R128) and
`raise ChecksumMismatch` (R130). Nothing is saved, and control goes to the fixed phase `DONE`. -/
def State.abort (f : Failure) (s : State) : State :=
  match f with
  | .timeout => { s with phase := .done, result := .timeout, ptCount := s.cfg.ceiling + 1 }
  | .checksumMismatch => { s with phase := .done, result := .checksumMismatch }

/-- The end of a successful read (41_protocol_engine.md R130): the Measurement is published. -/
def State.publish (s : State) : State :=
  { s with
    phase := .done
    meas := #v[s.frame[0], s.frame[1], s.frame[2], s.frame[3]]
    measValid := true
    result := .success }

/-- The end of the handshake (41_protocol_engine.md R126, the `Done` arm; the document's Ready). -/
def State.responseReady (s : State) : State :=
  { s with phase := .frame, ptCount := 0, measIdx := 0, result := .responseReady }

/-- What a tick with `rst = 1` loads (70_reset_and_hazards.md R180; 40_pulse_timer.md R107): every register of
the block and of the unit at its reset value. The configuration and the input script are no registers. -/
def State.resetRegisters (s : State) : State :=
  { State.reset with cfg := s.cfg, unitPort := s.unitPort, inputs := s.inputs, tick := s.tick }

/-- The next tick: the current inputs are spent. -/
def State.advance (s : State) : State :=
  { s with inputs := s.inputs.tail, tick := s.tick + 1 }

/-- The word on the command port `start` (30_encoding.md R71). -/
def State.cmdWord (s : State) : Nat := if s.now.start then 1 else 0

/-- What `IDLE` and `DONE` do with the command port (41_protocol_engine.md R122, R131): `READ` is accepted, no
command changes nothing. -/
def State.serveCommand (s : State) : State :=
  match decode .cmd s.cmdWord with
  | .ok .read => s.acceptRead
  | _ => s

/-- `dur[meas_idx] <- c` (20_memory.md R53). -/
def State.storeDuration (s : State) (c : Nat) : State :=
  { s with dur := s.dur.set s.measIdx c }

/-- The unit takes the command at its port, if there is one: idle (40_pulse_timer.md R104), or at the tick a
measurement ends (R105 `finish`, R106). -/
def State.unitAccept (s : State) (cmd : Option Level) : State :=
  match cmd with
  | some l => { s with unitBusy := true, unitExp := l, unitCount := 0 }
  | none => { s with unitBusy := false }

/-- One tick of the pulse_timer unit with a command (`some L` for `MEASURE_LEVEL L`) or none at its port
(40_pulse_timer.md R104, R105, R106). A command to a busy unit that is not completing is ignored (30_encoding.md R80). -/
def State.unitTick (s : State) (cmd : Option Level) : State :=
  if s.unitBusy then
    match ptStep s.cfg.ceiling s.unitExp s.unitCount s.pinSample with
    | .continues c => { s with unitCount := c }
    | .done _ => { s with unitCount := 0 }.unitAccept cmd
    | .timedOut => { s with unitCount := s.cfg.ceiling + 1 }.unitAccept cmd
  else s.unitAccept cmd

end Sys2Proof.Machine
end

