-- ==== Sys2Proof/Machine/Operands.lean ====
section
/-! DEFINITION. How operands are formed (30_encoding.md R79): the expected level of a measurement, the bit of a cell,
the bytes of a frame, and the step of the measurement index. -/

namespace Sys2Proof.Machine

/-- The expected level of the duration of index `n`: its bit 0, even LOW, odd HIGH (10_state.md R24; 30_encoding.md
R79 (a)). -/
def levelOfIndex (n : Nat) : Level := Level.ofBit n

/-- The level the measurement in progress expects (30_encoding.md R79 (a); 10_state.md R31). Outside the measuring
phases there is no measurement, and nothing reads the value. -/
def State.expectedLevel (s : State) : Level :=
  match s.phase with
  | .ackLow => .low
  | .ackHigh => .high
  | .frame => levelOfIndex s.measIdx
  | .idle | .reqLow | .reqHigh | .decode | .verify | .done => .low

/-- The index of the next data measurement, if there is one (41_protocol_engine.md R127). -/
def nextIndex (i : Fin 80) : Option (Fin 80) :=
  if h : i.val + 1 < 80 then some ⟨i.val + 1, h⟩ else none

/-- The bit of a cell (30_encoding.md R76): 1 when the HIGH count is strictly greater than the LOW count. -/
def cellBit (low high : Nat) : Bool := decide (low < high)

/-- Data bit `i` of a frame, from the duration buffer (41_protocol_engine.md R129). -/
def dataBit (dur : Vector Nat 80) (i : Fin 40) : Bool :=
  cellBit (dur[2 * i.val]) (dur[2 * i.val + 1])

/-- A byte from eight bits, the first of them its bit 7 (20_memory.md R54). -/
def packByte (b : Fin 8 → Bool) : Byte :=
  BitVec.ofBoolListBE [b 0, b 1, b 2, b 3, b 4, b 5, b 6, b 7]

/-- Byte `k` of the frame: bit `7 − j` is data bit `8*k + j` (30_encoding.md R79 (b)). -/
def frameByte (dur : Vector Nat 80) (k : Fin 5) : Byte :=
  packByte fun j => dataBit dur ⟨8 * k.val + j.val, by omega⟩

/-- The five bytes decoded from 80 durations (41_protocol_engine.md R129). -/
def decodeFrame (dur : Vector Nat 80) : Vector Byte 5 :=
  #v[frameByte dur 0, frameByte dur 1, frameByte dur 2, frameByte dur 3, frameByte dur 4]

/-- The frame as one 40-bit number, `frame[0] ‖ frame[1] ‖ frame[2] ‖ frame[3] ‖ frame[4]` (20_memory.md R54). -/
def frameWord (f : Vector Byte 5) : BitVec 40 := f[0] ++ f[1] ++ f[2] ++ f[3] ++ f[4]

end Sys2Proof.Machine
end

