-- ==== Sys2Proof/Machine/Flags.lean ====
section
/-! DEFINITION. The outputs of the block (10_state.md R30) and of the pulse_timer unit (40_pulse_timer.md R105), and the
checksum test. -/

namespace Sys2Proof.Machine

/-- The phases in which the line is sampled (20_memory.md R52). -/
def measuring : Phase → Bool
  | .ackLow | .ackHigh | .frame => true
  | .idle | .reqLow | .reqHigh | .decode | .verify | .done => false

/-- The phases in which `start` is looked at (41_protocol_engine.md R140). -/
def accepting : Phase → Bool
  | .idle | .done => true
  | .reqLow | .reqHigh | .ackLow | .ackHigh | .frame | .decode | .verify => false

/-- Output `busy` (10_state.md R30). -/
def State.busy (s : State) : Bool := !accepting s.phase

/-- Output `done` (10_state.md R30). -/
def State.doneOut (s : State) : Bool := decide (s.phase = .done)

/-- Output `rvalid` (10_state.md R30). -/
def State.rvalid (s : State) : Bool :=
  match s.phase with
  | .frame | .decode | .verify | .done => true
  | .idle | .reqLow | .reqHigh | .ackLow | .ackHigh => false

/-- Output `result`, the two bits of the register (10_state.md R30; 30_encoding.md R73). -/
def State.resultOut (s : State) : Nat := s.result.code

/-- Outputs `hum_int`, `hum_frac`, `temp_int`, `temp_frac` (10_state.md R30). -/
def State.humInt (s : State) : Byte := s.meas[0]
def State.humFrac (s : State) : Byte := s.meas[1]
def State.tempInt (s : State) : Byte := s.meas[2]
def State.tempFrac (s : State) : Byte := s.meas[3]

/-- Output `pin_oe` (10_state.md R30): the block drives the line in the two request phases only. -/
def State.pinOe (s : State) : Bool :=
  match s.phase with
  | .reqLow | .reqHigh => true
  | .idle | .ackLow | .ackHigh | .frame | .decode | .verify | .done => false

/-- Output `pin_out` (10_state.md R30). -/
def State.pinOut (s : State) : Level := if s.phase = .reqLow then .low else .high

/-- All the outputs of the block together (10_state.md R30, R33). -/
structure Outputs where
  busy : Bool
  done : Bool
  rvalid : Bool
  result : Nat
  measValid : Bool
  humInt : Byte
  humFrac : Byte
  tempInt : Byte
  tempFrac : Byte
  pinOe : Bool
  pinOut : Level
deriving DecidableEq, Repr

/-- What a host and the pad see of a state (10_state.md R30). -/
def State.outputs (s : State) : Outputs where
  busy := s.busy
  done := s.doneOut
  rvalid := s.rvalid
  result := s.resultOut
  measValid := s.measValid
  humInt := s.humInt
  humFrac := s.humFrac
  tempInt := s.tempInt
  tempFrac := s.tempFrac
  pinOe := s.pinOe
  pinOut := s.pinOut

/-- The exact sum of the four data bytes, truncated to 8 bits (41_protocol_engine.md R130, R138 (c)). -/
def checksum (f : Vector Byte 5) : Byte :=
  BitVec.ofNat 8 (f[0].toNat + f[1].toNat + f[2].toNat + f[3].toNat)

/-- The checksum test (41_protocol_engine.md R130). -/
def checksumOk (f : Vector Byte 5) : Bool := checksum f == f[4]

/-- The Pulse Duration the unit delivers at this tick, if one: `pt_done = 1` exactly when there is one
(40_pulse_timer.md R104, R105, R107). -/
def State.unitOutput (s : State) : Option PulseDuration :=
  if s.now.rst then none
  else if s.unitBusy then
    match ptStep s.cfg.ceiling s.unitExp s.unitCount s.pinSample with
    | .continues _ => none
    | .done c => some (.count c)
    | .timedOut => some .timeout
  else none

/-- Output `pt_done` of the unit (40_pulse_timer.md R105). -/
def State.ptDone (s : State) : Bool := s.unitOutput.isSome

/-- Output `pt_timeout` of the unit (30_encoding.md R74); free while `pt_done = 0` (log 11). -/
def State.ptTimeout (s : State) : Bool :=
  match s.unitOutput with
  | some .timeout => true
  | some (.count _) => false
  | none => Config.freePtTimeout s.tick

/-- Output `pt_dur` of the unit (30_encoding.md R74); free while `pt_done = 0` (log 11), within its `DW` bits. -/
def State.ptDur (s : State) : Nat :=
  match s.unitOutput with
  | some .timeout => s.cfg.ceiling + 1
  | some (.count n) => n
  | none => Config.freePtDur s.tick % 2 ^ s.cfg.dw

end Sys2Proof.Machine
end

