-- ==== Sys2Proof/Machine/Command.lean ====
section
/-! DEFINITION. The engine's command port (format CMD): READ and NOP. -/

namespace Sys2Proof.Machine

/-- `READ` (41_protocol_engine.md R120; 30_encoding.md R71, R80): accepted in `IDLE` and `DONE`, elsewhere ignored
and not remembered. The read it begins is carried out by the phase micro-operations, one a tick. -/
def execRead (s : State) : Host.Outcome State Fault Refusal :=
  if accepting s.phase then .next s.acceptRead else .next s

/-- `NOP`: no command, no change (41_protocol_engine.md R122; 30_encoding.md R84). -/
def execNop (s : State) : Host.Outcome State Fault Refusal := .next s

end Sys2Proof.Machine
end

