-- ==== Sys2Proof/Machine/Phases.lean ====
section
/-! DEFINITION. The nine phase micro-operations (format PHASE): the step rules R122 to R127 and R129 to R131 of
41_protocol_engine.md. A register a rule does not mention keeps its value. -/

namespace Sys2Proof.Machine

/-- `IDLE` (41_protocol_engine.md R122): wait for `READ`. -/
def execIdle (s : State) : Host.Outcome State Fault Refusal := .next s.serveCommand

/-- `REQ_LOW` (41_protocol_engine.md R123): drive LOW, count the hold. -/
def execReqLow (s : State) : Host.Outcome State Fault Refusal :=
  if s.delayCnt = s.cfg.reqLowTicks - 1 then .next { s with phase := .reqHigh, delayCnt := 0 }
  else .next { s with delayCnt := s.delayCnt + 1 }

/-- `REQ_HIGH` (41_protocol_engine.md R124): drive HIGH, count the hold, then release the line. -/
def execReqHigh (s : State) : Host.Outcome State Fault Refusal :=
  if s.delayCnt = s.cfg.reqHighTicks - 1 then .next { s with phase := .ackLow, delayCnt := 0, ptCount := 0 }
  else .next { s with delayCnt := s.delayCnt + 1 }

/-- `ACK_LOW` (41_protocol_engine.md R125): measure the acknowledgement; its count is discarded. -/
def execAckLow (s : State) : Host.Outcome State Fault Refusal :=
  match ptStep s.cfg.ceiling .low s.ptCount s.pinSample with
  | .continues c => .next { s with ptCount := c }
  | .done _ => .next { s with ptCount := 0, phase := .ackHigh }
  | .timedOut => .next (s.abort .timeout)

/-- `ACK_HIGH` (41_protocol_engine.md R126): measure the ready pulse; its end is the document's Ready. -/
def execAckHigh (s : State) : Host.Outcome State Fault Refusal :=
  match ptStep s.cfg.ceiling .high s.ptCount s.pinSample with
  | .continues c => .next { s with ptCount := c }
  | .done _ => .next s.responseReady
  | .timedOut => .next (s.abort .timeout)

/-- `FRAME` (41_protocol_engine.md R127): measure the data duration `meas_idx`. -/
def execFrame (s : State) : Host.Outcome State Fault Refusal :=
  match ptStep s.cfg.ceiling (levelOfIndex s.measIdx) s.ptCount s.pinSample with
  | .continues c => .next { s with ptCount := c }
  | .done c =>
    match nextIndex s.measIdx with
    | none => .next { s.storeDuration c with ptCount := 0, phase := .decode }
    | some i => .next { s.storeDuration c with ptCount := 0, measIdx := i }
  | .timedOut => .next (s.abort .timeout)

/-- `DECODE` (41_protocol_engine.md R129): 80 durations to five bytes in one tick. -/
def execDecode (s : State) : Host.Outcome State Fault Refusal :=
  .next { s with frame := decodeFrame s.dur, phase := .verify }

/-- `VERIFY` (41_protocol_engine.md R130): the checksum test; publish or fail. -/
def execVerify (s : State) : Host.Outcome State Fault Refusal :=
  if checksumOk s.frame then .next s.publish else .next (s.abort .checksumMismatch)

/-- `DONE` (41_protocol_engine.md R131): hold the results, wait for `READ`. -/
def execDone (s : State) : Host.Outcome State Fault Refusal := .next s.serveCommand

end Sys2Proof.Machine
end

