-- ==== Sys2Proof/Machine/PulseTimer.lean ====
section
/-! DEFINITION. The pulse_timer unit's command port (format PTCMD): MEASURE_LEVEL and PT_NOP. The result of a measurement
is `State.unitOutput` at the tick it completes (40_pulse_timer.md R105). -/

namespace Sys2Proof.Machine

/-- A tick of the unit with `MEASURE_LEVEL L` at its port (40_pulse_timer.md R101, R104 to R106). -/
def execMeasureLevel (level : Level) (s : State) : Host.Outcome State Fault Refusal :=
  .next (s.unitTick (some level))

/-- A tick of the unit with no command at its port (40_pulse_timer.md R104, R105); bit 0 is ignored
(30_encoding.md R72). -/
def execPtNop (_ignored : Level) (s : State) : Host.Outcome State Fault Refusal :=
  .next (s.unitTick none)

end Sys2Proof.Machine
end

