-- ==== Sys2Proof/Machine/Response.lean ====
section
/-! DEFINITION. The four responses (format RES). A response is no operation; the table names the rule that writes it
(30_encoding.md R84), and its meaning here is what that rule writes when it gives that response (log 6). -/

namespace Sys2Proof.Machine

/-- `RES_SUCCESS`: 41_protocol_engine.md R130, the arm of a checksum that holds. -/
def execResSuccess (s : State) : Host.Outcome State Fault Refusal := .next s.publish

/-- `RES_RESPONSE_READY`: 41_protocol_engine.md R126, the `Done` arm. -/
def execResResponseReady (s : State) : Host.Outcome State Fault Refusal := .next s.responseReady

/-- `RES_CHECKSUM_MISMATCH`: 41_protocol_engine.md R130, `raise ChecksumMismatch`. -/
def execResChecksumMismatch (s : State) : Host.Outcome State Fault Refusal := .next (s.abort .checksumMismatch)

/-- `RES_TIMEOUT`: 41_protocol_engine.md R128, `raise Timeout`. -/
def execResTimeout (s : State) : Host.Outcome State Fault Refusal := .next (s.abort .timeout)

end Sys2Proof.Machine
end

