-- ==== Sys2Proof/Machine/Dispatch.lean ====
section
/-! DEFINITION. One arm per operation: what it does to the registers at a tick. What a tick adds around it is in
Step.lean. -/

namespace Sys2Proof.Machine

def exec (i : Instr) (s : State) : Host.Outcome State Fault Refusal :=
  match i with
  | .read => Sys2Proof.Machine.execRead s
  | .nop => Sys2Proof.Machine.execNop s
  | .measureLevel level => Sys2Proof.Machine.execMeasureLevel level s
  | .ptNop ignored => Sys2Proof.Machine.execPtNop ignored s
  | .idle => Sys2Proof.Machine.execIdle s
  | .reqLow => Sys2Proof.Machine.execReqLow s
  | .reqHigh => Sys2Proof.Machine.execReqHigh s
  | .ackLow => Sys2Proof.Machine.execAckLow s
  | .ackHigh => Sys2Proof.Machine.execAckHigh s
  | .frame => Sys2Proof.Machine.execFrame s
  | .decode => Sys2Proof.Machine.execDecode s
  | .verify => Sys2Proof.Machine.execVerify s
  | .done => Sys2Proof.Machine.execDone s
  | .resSuccess => Sys2Proof.Machine.execResSuccess s
  | .resResponseReady => Sys2Proof.Machine.execResResponseReady s
  | .resChecksumMismatch => Sys2Proof.Machine.execResChecksumMismatch s
  | .resTimeout => Sys2Proof.Machine.execResTimeout s

end Sys2Proof.Machine
end

