-- ==== Sys2Proof/Machine/Wiring.lean ====
section
/-! DEFINITION. The words a tick fetches from the block's ports, the engine's drive of the unit's command port
(41_protocol_engine.md R133), and how a word is placed where the next tick fetches it. -/

namespace Sys2Proof.Machine

/-- Did a measurement of the unit end normally at this tick (`pt_done = 1, pt_timeout = 0`)? -/
def State.unitCounted (s : State) : Bool :=
  match s.unitOutput with
  | some (.count _) => true
  | some .timeout | none => false

/-- The command the engine drives at the unit's port (41_protocol_engine.md R133), `none` for `pt_start = 0`. -/
def State.engineCommand (s : State) : Option Level :=
  match s.phase with
  | .reqHigh => if s.delayCnt = s.cfg.reqHighTicks - 1 then some .low else none
  | .ackLow => if s.unitCounted then some .high else none
  | .ackHigh => if s.unitCounted then some .low else none
  | .frame => if s.unitCounted && decide (s.measIdx.val < 79) then some (levelOfIndex s.measIdx).flip else none
  | .idle | .reqLow | .decode | .verify | .done => none

/-- The word `{pt_start, pt_level}` of a command (30_encoding.md R72). With no command `pt_level` is LOW (log 5). -/
def ptWord (cmd : Option Level) : Nat :=
  match cmd with
  | some l => 2 + l.bit
  | none => 0

/-- The word on the unit's command port at this tick, from whoever drives it. -/
def State.ptCommandWord (s : State) : Nat :=
  match s.unitPort with
  | .engine => ptWord s.engineCommand
  | .bench => (if s.now.ptStart then 2 else 0) + s.now.ptLevel.bit

/-- The operation at the unit's command port. -/
def State.fetchUnit (s : State) : Except DecodeError Instr := decode .ptcmd s.ptCommandWord

/-- The micro-operation the phase register selects (30_encoding.md R75). -/
def State.fetchPhase (s : State) : Except DecodeError Instr := decode .phase s.phase.code

/-- The state with the inputs of the current tick replaced; where none are listed, the quiet inputs stand first. -/
def State.withNow (s : State) (f : Inputs → Inputs) : State :=
  match s.inputs with
  | [] => { s with inputs := [f Inputs.quiet] }
  | x :: xs => { s with inputs := f x :: xs }

/-- Place the word `w` on a port so that the very next tick fetches it (log 12). A word the port cannot hold is not
placed, and nothing is written to the output port `res`. -/
def State.place (s : State) (p : Port) (w : Nat) : State :=
  match p with
  | .cmd => s.withNow fun x => { x with rst := false, start := decide (w % 2 = 1) }
  | .ptcmd =>
    { s with unitPort := .bench }.withNow fun x =>
      { x with rst := false, ptStart := decide (w / 2 % 2 = 1), ptLevel := Level.ofBit w }
  | .phase =>
    match phaseOfCode w with
    | some ph => { s with phase := ph }.withNow fun x => { x with rst := false }
    | none => s
  | .res => s

end Sys2Proof.Machine
end

