-- ==== Sys2Proof/Machine/Step.lean ====
section
/-! DEFINITION. One tick of the machine (00_scope.md R9; 60_exceptions.md R165). -/

namespace Sys2Proof.Machine

/-- One tick. `rst = 1` loads the reset state, and no other rule applies (70_reset_and_hazards.md R180). Otherwise the
operation at the unit's command port and the micro-operation the phase selects are fetched from the state before the
tick and take effect together: the first writes the unit's registers only and the second the block's only, so their
order here does not matter (log 7). `READ` and `NOP` at the port `start` take effect within `IDLE` and `DONE`. -/
def step (s : State) : Host.Outcome State Fault Refusal :=
  if s.now.rst then .next s.resetRegisters.advance
  else
    match s.fetchUnit, s.fetchPhase with
    | .ok u, .ok i =>
      match exec u s with
      | .next s₁ =>
        match exec i s₁ with
        | .next s₂ => .next s₂.advance
        | .fault f => .fault f
        | .refused r => .refused r
      | .fault f => .fault f
      | .refused r => .refused r
    | .error e, _ => .refused (.undecodable e)
    | .ok _, .error e => .refused (.undecodable e)

/-- The state with a word of the opcode table placed where the next tick fetches it (logs 8 and 12). -/
def State.withFetchWord (s : State) (nbits w : Nat) : State := s.place (portOfWidth nbits) w

end Sys2Proof.Machine
end

