-- ==== Sys2Proof/Machine/ReadFunction.lean ====
section
/-! DEFINITION. A measurement and a read as functions of the sample sequence (40_pulse_timer.md R101, R103;
41_protocol_engine.md R135). `step` does not use them: they say in one expression what its ticks come to. -/

namespace Sys2Proof.Machine

/-- `MEASURE_LEVEL` as its pseudocode (40_pulse_timer.md R101): `pt_step` on the samples from position `p` on, the
count being `c` so far. The result and the number of samples consumed. `fuel` bounds the recursion; `CEILING + 1`
is enough from `c = 0` (R109). -/
def measureLoop (ceiling : Nat) (expected : Level) (samples : Nat → Level) : Nat → Nat → Nat → PulseDuration × Nat
  | 0, c, _ => (.timeout, c)
  | fuel + 1, c, p =>
    match ptStep ceiling expected c (samples p) with
    | .continues c' => measureLoop ceiling expected samples fuel c' (p + 1)
    | .done n => (.count n, c + 1)
    | .timedOut => (.timeout, c + 1)

/-- The number of leading samples from position `p` on that equal the expected level, looking at `k` of them. -/
def leadingMatches (expected : Level) (samples : Nat → Level) : Nat → Nat → Nat
  | 0, _ => 0
  | k + 1, p => if samples p = expected then leadingMatches expected samples k (p + 1) + 1 else 0

/-- `measure(L, s)` from position `p` on (40_pulse_timer.md R103): the result and the samples consumed. -/
def measureFn (ceiling : Nat) (expected : Level) (samples : Nat → Level) (p : Nat) : PulseDuration × Nat :=
  let n := leadingMatches expected samples (ceiling + 1) p
  if n ≤ ceiling then (.count n, n + 1) else (.timeout, ceiling + 1)

/-- What the measurements of a read come to: their counts in order and the samples consumed, or the number of the
one that timed out, and the samples consumed up to its end. -/
inductive MeasureRun where
  | counted (counts : List Nat) (consumed : Nat)
  | timedOut (number : Nat) (consumed : Nat)
deriving DecidableEq, Repr

/-- `left` measurements in a row, the first of them number `m` and beginning at position `p`, the expected levels
alternating from LOW (41_protocol_engine.md R135; 30_encoding.md R79 (a)). -/
def measureRun (ceiling : Nat) (samples : Nat → Level) : Nat → Nat → Nat → MeasureRun
  | 0, _, p => .counted [] p
  | left + 1, m, p =>
    match measureFn ceiling (levelOfIndex m) samples p with
    | (.count n, k) =>
      match measureRun ceiling samples left (m + 1) (p + k) with
      | .counted counts consumed => .counted (n :: counts) consumed
      | .timedOut number consumed => .timedOut number consumed
    | (.timeout, k) => .timedOut m (p + k)

/-- What a read reports (41_protocol_engine.md R135): the final code, the Measurement, and the samples consumed. -/
structure ReadOutcome where
  result : ResultCode
  measurement : Option (Vector Byte 4)
  consumed : Nat
deriving DecidableEq, Repr

/-- The durations `dur[0..79]` among the 82 counts of a read: the first two are the handshake's. -/
def durationsOf (counts : List Nat) : Vector Nat 80 := Vector.ofFn fun i => counts.getD (i.val + 2) 0

/-- `read_fn(s)` (41_protocol_engine.md R135). -/
def readFn (ceiling : Nat) (samples : Nat → Level) : ReadOutcome :=
  match measureRun ceiling samples 82 0 0 with
  | .timedOut _ k => { result := .timeout, measurement := none, consumed := k }
  | .counted counts k =>
    let f := decodeFrame (durationsOf counts)
    if checksumOk f then
      { result := .success, measurement := some #v[f[0], f[1], f[2], f[3]], consumed := k }
    else { result := .checksumMismatch, measurement := none, consumed := k }

end Sys2Proof.Machine
end

