-- ==== Sys2Proof/Machine/Stimulus.lean ====
section
/-! DEFINITION. The stimulus notation (30_encoding.md R82, R83): line scripts as segments, and scripts as the inputs
of the ticks. The block knows nothing of it; it serves tests and statements about whole frames. -/

namespace Sys2Proof.Machine

/-- A segment `L*n` or `H*n` (30_encoding.md R82). -/
abbrev Segment := Level × Nat

/-- The level at position `j` of a line script, and `rest` for ever after its last segment: HIGH where nothing is
written, LOW for `L*inf` (30_encoding.md R82). -/
def levelAt (rest : Level) : List Segment → Nat → Level
  | [], _ => rest
  | (l, n) :: segs, j => if j < n then l else levelAt rest segs (j - n)

/-- The pseudo-segments of 30_encoding.md R83, a nominal sensor sampled at 10 µs. -/
def ackSegments : List Segment := [(.low, 5), (.high, 8)]
def bitSegments (b : Bool) : List Segment := if b then [(.low, 5), (.high, 7)] else [(.low, 5), (.high, 2)]
def endSegments : List Segment := [(.low, 5)]
def cellSegments (l h : Nat) : List Segment := [(.low, l + 1), (.high, h + 1)]

/-- `BYTE(b)`: bits 7, 6, ..., 0 in that order (30_encoding.md R83). -/
def byteSegments (b : Byte) : List Segment :=
  [7, 6, 5, 4, 3, 2, 1, 0].flatMap fun j => bitSegments (b.getLsbD j)

/-- `FRAME(b0, b1, b2, b3, b4)` (30_encoding.md R83). -/
def frameSegments (f : Vector Byte 5) : List Segment :=
  byteSegments f[0] ++ byteSegments f[1] ++ byteSegments f[2] ++ byteSegments f[3] ++ byteSegments f[4]

/-- The samples of a well-formed line script `ACK FRAME(...) END` from its first tick on (30_encoding.md R83). -/
def nominalSamples (f : Vector Byte 5) : Nat → Level :=
  levelAt .high (ackSegments ++ frameSegments f ++ endSegments)

/-- The inputs of `n` ticks from a host script (the ticks of `RESET` and of `START`) and a line script
`LINE from origin` (30_encoding.md R82). -/
def script (resets starts : List Nat) (origin : Nat) (line : List Segment) (n : Nat) : List Inputs :=
  (List.range n).map fun t =>
    { Inputs.quiet with
      rst := resets.contains t
      start := starts.contains t
      pinIn := if t < origin then .high else levelAt .high line (t - origin) }

end Sys2Proof.Machine
end

