-- ==== Sys2Proof/Machine/Wired.lean ====
section
/-! DEFINITION. The wired form of the block (41_protocol_engine.md R133): the engine plus one pulse_timer unit. The
engine takes the unit's outputs where the normative rules call `pt_step`. R134 says it is the same machine as `step`. -/

namespace Sys2Proof.Machine

/-- The engine's registers after a tick of the wired form (41_protocol_engine.md R133): `out` is what the unit
delivers at the tick, `none` for `pt_done = 0`. The engine has no counter of its own. -/
def State.engineTick (s : State) (out : Option PulseDuration) : State :=
  match s.phase with
  | .idle => s.serveCommand
  | .reqLow =>
    if s.delayCnt = s.cfg.reqLowTicks - 1 then { s with phase := .reqHigh, delayCnt := 0 }
    else { s with delayCnt := s.delayCnt + 1 }
  | .reqHigh =>
    if s.delayCnt = s.cfg.reqHighTicks - 1 then { s with phase := .ackLow, delayCnt := 0 }
    else { s with delayCnt := s.delayCnt + 1 }
  | .ackLow =>
    match out with
    | none => s
    | some (.count _) => { s with phase := .ackHigh }
    | some .timeout => { s with phase := .done, result := .timeout }
  | .ackHigh =>
    match out with
    | none => s
    | some (.count _) => { s with phase := .frame, measIdx := 0, result := .responseReady }
    | some .timeout => { s with phase := .done, result := .timeout }
  | .frame =>
    match out with
    | none => s
    | some (.count c) =>
      match nextIndex s.measIdx with
      | none => { s.storeDuration c with phase := .decode }
      | some i => { s.storeDuration c with measIdx := i }
    | some .timeout => { s with phase := .done, result := .timeout }
  | .decode => { s with frame := decodeFrame s.dur, phase := .verify }
  | .verify =>
    if checksumOk s.frame then s.publish else { s with phase := .done, result := .checksumMismatch }
  | .done => s.serveCommand

/-- One tick of the wired form: the engine and the unit step together, sharing `rst` and `pin_in` (R133). The block's
`ptCount` is read off the unit, which is the only counter there. -/
def wiredStep (s : State) : State :=
  if s.now.rst then s.resetRegisters.advance
  else
    let e := s.engineTick s.unitOutput
    let u := s.unitTick s.engineCommand
    { e with ptCount := u.unitCount, unitBusy := u.unitBusy, unitExp := u.unitExp, unitCount := u.unitCount }.advance

/-- `k` ticks of the wired form. -/
def wiredRun : Nat → State → State
  | 0, s => s
  | k + 1, s => wiredRun k (wiredStep s)

end Sys2Proof.Machine
end

