-- ==== Sys2Proof/Safety.lean ====
section
/-! DEFINITION. The terms statements are made in: runs, the invariants of the state (10_state.md R34, R31), and states
that agree on the block's registers. -/

namespace Sys2Proof.Machine

/-- `t` is the state `k` ticks after `s`. -/
def State.After (k : Nat) (s t : State) : Prop := Sys2Proof.core.run k s = .next t

/-- No reset at any of the next `n` ticks. -/
def State.NoReset (s : State) (n : Nat) : Prop := ∀ j, j < n → (s.inputAt j).rst = false

/-- Item 2 of 10_state.md R34. -/
abbrev State.DelayInRange (s : State) : Prop :=
  (s.phase = .reqLow → s.delayCnt ≤ s.cfg.reqLowTicks - 1) ∧
  (s.phase = .reqHigh → s.delayCnt ≤ s.cfg.reqHighTicks - 1) ∧
  (s.phase ≠ .reqLow → s.phase ≠ .reqHigh → s.delayCnt = 0)

/-- Item 3 of 10_state.md R34. -/
abbrev State.CountInRange (s : State) : Prop :=
  (measuring s.phase = true → s.ptCount ≤ s.cfg.ceiling) ∧ s.ptCount ≤ s.cfg.ceiling + 1

/-- Item 5 of 10_state.md R34, for the entries the read in progress has written: below `meas_idx` in `FRAME`, all of
them in `DECODE` and `VERIFY`. -/
abbrev State.DurationsInRange (s : State) : Prop :=
  (s.phase = .frame → ∀ i : Fin 80, i < s.measIdx → s.dur[i] ≤ s.cfg.ceiling) ∧
  (s.phase = .decode ∨ s.phase = .verify → ∀ i : Fin 80, s.dur[i] ≤ s.cfg.ceiling)

/-- Item 6 of 10_state.md R34. -/
abbrev State.ValidIffSuccess (s : State) : Prop :=
  s.measValid = true ↔ (s.phase = .done ∧ s.result = .success)

/-- Items 7 and 8 of 10_state.md R34: the Measurement, where valid, is the frame's and passes the checksum; where not,
all its bytes are 0. -/
abbrev State.MeasurementSound (s : State) : Prop :=
  (s.measValid = true →
    s.meas[0] = s.frame[0] ∧ s.meas[1] = s.frame[1] ∧ s.meas[2] = s.frame[2] ∧ s.meas[3] = s.frame[3] ∧
    (s.meas[0].toNat + s.meas[1].toNat + s.meas[2].toNat + s.meas[3].toNat) % 256 = s.frame[4].toNat) ∧
  (s.measValid = false → s.meas = #v[0, 0, 0, 0])

/-- Items 9, 10 and 11 of 10_state.md R34: where each Result Code can stand. -/
abbrev State.ResultSound (s : State) : Prop :=
  (s.result = .responseReady ↔ (s.phase = .frame ∨ s.phase = .decode ∨ s.phase = .verify)) ∧
  (s.phase = .done → s.result = .success ∨ s.result = .checksumMismatch ∨ s.result = .timeout) ∧
  (s.phase = .idle ∨ s.phase = .reqLow ∨ s.phase = .reqHigh ∨ s.phase = .ackLow ∨ s.phase = .ackHigh →
    s.result = .success)

/-- Item 12 of 10_state.md R34. -/
abbrev State.DriveSound (s : State) : Prop := s.pinOe = true → s.phase = .reqLow ∨ s.phase = .reqHigh

/-- The invariants of 10_state.md R34. Item 1 (one of nine phases) and item 4 (`meas_idx <= 79`) are the types of
`phase` and `measIdx`. -/
structure State.Inv (s : State) : Prop where
  delay : s.DelayInRange
  count : s.CountInRange
  durations : s.DurationsInRange
  valid : s.ValidIffSuccess
  measurement : s.MeasurementSound
  result : s.ResultSound
  drive : s.DriveSound

/-- The unit's counter in its range (40_pulse_timer.md R112), whoever drives the unit. -/
structure State.UnitInv (s : State) : Prop where
  busy : s.unitBusy = true → s.unitCount ≤ s.cfg.ceiling
  bound : s.unitCount ≤ s.cfg.ceiling + 1

/-- The unit mirrors the engine (10_state.md R31; 41_protocol_engine.md R134). -/
structure State.UnitAgrees (s : State) : Prop where
  busy : s.unitBusy = measuring s.phase
  expected : measuring s.phase = true → s.unitExp = s.expectedLevel
  count : s.unitCount = s.ptCount

/-- The two states have the same configuration and hold the same in the nine items of 10_state.md R20. -/
def State.SameBlock (s t : State) : Prop :=
  s.cfg = t.cfg ∧ s.phase = t.phase ∧ s.delayCnt = t.delayCnt ∧ s.ptCount = t.ptCount ∧ s.measIdx = t.measIdx ∧
    s.dur = t.dur ∧ s.frame = t.frame ∧ s.meas = t.meas ∧ s.measValid = t.measValid ∧ s.result = t.result

/-- The two states hold the same in the unit's three registers (10_state.md R31). -/
def State.SameUnit (s t : State) : Prop :=
  s.unitBusy = t.unitBusy ∧ s.unitExp = t.unitExp ∧ s.unitCount = t.unitCount

/-- A read is accepted at the current tick (41_protocol_engine.md R122, R131). -/
def State.Accepts (s : State) : Prop := accepting s.phase = true ∧ s.now.start = true ∧ s.now.rst = false

end Sys2Proof.Machine
end

