-- ==== Sys2Proof/Certificates/Slice0/Obligations.lean ====
section
/-! DEFINITION. The statements for the provers. Each docstring names the rule of spec/ a statement formalises, or says
that it is the model's own choice and names the log entry. `exec i s` is what operation `i` does to the registers at
a tick; `step` is a whole tick; `State.After k s t` says that `t` is the state `k` ticks after `s`. -/

open Sys2Proof Sys2Proof.Machine

/-! ### Encodings -/

/-- Every row of opcode_table.json, its word written out from its `encoding` column, decodes to its operation; so do
both values of the two operand bits. -/
def Obligations.TableWordsDecodeToTheirRows : Prop :=
  decode .cmd 0b1 = .ok .read ∧ decode .cmd 0b0 = .ok .nop ∧
  decode .ptcmd 0b10 = .ok (.measureLevel .low) ∧ decode .ptcmd 0b11 = .ok (.measureLevel .high) ∧
  decode .ptcmd 0b00 = .ok (.ptNop .low) ∧ decode .ptcmd 0b01 = .ok (.ptNop .high) ∧
  decode .phase 0b0000 = .ok .idle ∧ decode .phase 0b0001 = .ok .reqLow ∧ decode .phase 0b0010 = .ok .reqHigh ∧
  decode .phase 0b0011 = .ok .ackLow ∧ decode .phase 0b0100 = .ok .ackHigh ∧ decode .phase 0b0101 = .ok .frame ∧
  decode .phase 0b0110 = .ok .decode ∧ decode .phase 0b0111 = .ok .verify ∧ decode .phase 0b1000 = .ok .done ∧
  decode .res 0b00 = .ok .resSuccess ∧ decode .res 0b01 = .ok .resResponseReady ∧
  decode .res 0b10 = .ok .resChecksumMismatch ∧ decode .res 0b11 = .ok .resTimeout

/-- Decode and encode agree both ways, for every port, every word and every operation: no bit of an encoding is
dropped and no word has two meanings. -/
def Obligations.DecodeAndEncodeAgree : Prop :=
  ∀ (p : Port) (w : Nat) (i : Instr), decode p w = .ok i ↔ encode i = (p, w)

/-- The words that select no operation, each refused by its name (30_encoding.md R75, R80): those wider than their
port, and the phase codes 9 to 15. -/
def Obligations.ReservedWordsAreRefusedByName : Prop :=
  ∀ (p : Port) (w : Nat) (e : DecodeError), decode p w = .error e ↔
    (2 ^ p.width ≤ w ∧ e = .wordTooWide p w) ∨ (p = .phase ∧ 9 ≤ w ∧ w ≤ 15 ∧ e = .reservedPhase w)

/-! ### Reset -/

/-- 70_reset_and_hazards.md R181: the values it gives (`dur` is not among them), and that after reset the block idles
until `start`. -/
def Obligations.ResetStateHasItsStatedValues : Prop :=
  State.reset.phase = .idle ∧ State.reset.delayCnt = 0 ∧ State.reset.ptCount = 0 ∧ State.reset.measIdx = 0 ∧
  State.reset.frame = #v[0, 0, 0, 0, 0] ∧ State.reset.meas = #v[0, 0, 0, 0] ∧ State.reset.measValid = false ∧
  State.reset.resultOut = 0 ∧ State.reset.busy = false ∧ State.reset.doneOut = false ∧
  State.reset.rvalid = false ∧ State.reset.pinOe = false ∧ State.reset.pinOut = .high ∧
  ∀ s : State, s.phase = .idle → s.now.rst = false → s.now.start = false →
    ∃ t, step s = .next t ∧ t.SameBlock s

/-- 70_reset_and_hazards.md R180: whatever the state and the other inputs are, `rst = 1` gives the reset state; the
first tick without it is an ordinary tick in `IDLE`; and without a reset no read is abandoned. -/
def Obligations.ResetTickLoadsTheResetState : Prop :=
  (∀ s : State, s.now.rst = true → ∃ t, step s = .next t ∧
    t.phase = .idle ∧ t.delayCnt = 0 ∧ t.ptCount = 0 ∧ t.measIdx = 0 ∧ t.frame = #v[0, 0, 0, 0, 0] ∧
    t.meas = #v[0, 0, 0, 0] ∧ t.measValid = false ∧ t.resultOut = 0 ∧ t.cfg = s.cfg ∧
    (t.now.rst = false → t.now.start = true → ∃ u, step t = .next u ∧ u.phase = .reqLow ∧ u.delayCnt = 0)) ∧
  (∀ s t : State, s.now.rst = false → s.phase ≠ .idle → step s = .next t → t.phase ≠ .idle)

/-- 40_pulse_timer.md R107: the unit's reset, whatever else is true at the tick; it delivers nothing then. -/
def Obligations.ResetTickLoadsTheUnitsResetState : Prop :=
  ∀ s : State, s.now.rst = true → s.ptDone = false ∧ ∃ t, step s = .next t ∧
    t.unitBusy = false ∧ t.unitExp = .low ∧ t.unitCount = 0

/-- 70_reset_and_hazards.md R182, which the spec marks as its own inference: a reset abandons the read in progress
with no result. Until the next `start`, the block stays in `IDLE`: `done` never rises for it, `result` reads 0, the
Measurement is cleared, the line is released. -/
def Obligations.AbandonedReadNeverFinishes : Prop :=
  ∀ (s : State) (n : Nat), s.now.rst = true → (∀ j, j < n → (s.inputAt (j + 1)).start = false) →
    ∀ k, k ≤ n → ∃ t, State.After (k + 1) s t ∧ t.phase = .idle ∧ t.doneOut = false ∧ t.resultOut = 0 ∧
      t.measValid = false ∧ t.meas = #v[0, 0, 0, 0] ∧ t.pinOe = false

/-! ### The command port -/

/-- 30_encoding.md R71: `start = 1` is `READ` and `start = 0` no command; `READ` is accepted only in `IDLE` and
`DONE`, with the writes of `accept_read` (41_protocol_engine.md R122), and elsewhere ignored. -/
def Obligations.ReadIsAcceptedInIdleAndDoneOnly : Prop :=
  (∀ s : State, decode .cmd s.cmdWord = if s.now.start = true then .ok .read else .ok .nop) ∧
  (∀ s : State, s.phase = .idle ∨ s.phase = .done → exec .read s = .next { s with
      phase := .reqLow, delayCnt := 0, measIdx := 0, result := .success, measValid := false,
      meas := #v[0, 0, 0, 0] }) ∧
  (∀ s : State, s.phase ≠ .idle → s.phase ≠ .done → exec .read s = .next s) ∧
  (∀ s : State, exec .nop s = .next s)

/-! ### The pulse_timer -/

/-- 40_pulse_timer.md R102: the three outcomes of `pt_step`, the level test before the ceiling test, and the bound on
what `Continue` carries. -/
def Obligations.PtStepHasItsThreeOutcomes : Prop :=
  ∀ (ceiling c : Nat) (expected sample : Level),
    (sample ≠ expected → ptStep ceiling expected c sample = .done c) ∧
    (sample = expected → c = ceiling → ptStep ceiling expected c sample = .timedOut) ∧
    (sample = expected → c ≠ ceiling → ptStep ceiling expected c sample = .continues (c + 1)) ∧
    (∀ c', c ≤ ceiling → ptStep ceiling expected c sample = .continues c' → c' ≤ ceiling)

/-- 40_pulse_timer.md R103, which the spec marks as its own inference: the tick-by-tick measurement of R101 is the
function `measureFn` of the sample sequence, and what that function gives. -/
def Obligations.MeasurementCountsLeadingSamples : Prop :=
  ∀ (ceiling : Nat) (expected : Level) (samples : Nat → Level) (p : Nat),
    let m := measureFn ceiling expected samples p
    measureLoop ceiling expected samples (ceiling + 1) 0 p = m ∧
    (∀ n, n ≤ ceiling → (∀ i, i < n → samples (p + i) = expected) → samples (p + n) ≠ expected →
      m = (.count n, n + 1)) ∧
    (m.1 = .timeout ↔ ∀ i, i ≤ ceiling → samples (p + i) = expected) ∧
    (m.1 = .timeout → m.2 = ceiling + 1) ∧
    (∀ n, m.1 = .count n → n ≤ ceiling ∧ m.2 = n + 1) ∧
    1 ≤ m.2 ∧ m.2 ≤ ceiling + 1

/-- 40_pulse_timer.md R104: a tick of the idle unit, with and without a command. -/
def Obligations.IdleUnitTakesACommand : Prop :=
  ∀ s : State, s.unitBusy = false →
    s.ptDone = false ∧
    (∀ level, exec (.measureLevel level) s = .next { s with unitBusy := true, unitExp := level, unitCount := 0 }) ∧
    (∀ ignored, exec (.ptNop ignored) s = .next s)

/-- 40_pulse_timer.md R105 (and R106 for the command taken at its end): a tick of the busy unit. The measurement goes
on, with or without a command; or it ends with its count or in Timeout, delivers that at the tick, and takes the
command presented at that very tick. -/
def Obligations.BusyUnitCountsDeliversAndChains : Prop :=
  ∀ s : State, s.unitBusy = true → s.now.rst = false →
    (s.now.pinIn ≠ s.unitExp →
      s.ptDone = true ∧ s.ptTimeout = false ∧ s.ptDur = s.unitCount ∧
      (∀ level, exec (.measureLevel level) s = .next { s with unitExp := level, unitCount := 0 }) ∧
      (∀ ignored, exec (.ptNop ignored) s = .next { s with unitBusy := false, unitCount := 0 })) ∧
    (s.now.pinIn = s.unitExp → s.unitCount = s.cfg.ceiling →
      s.ptDone = true ∧ s.ptTimeout = true ∧ s.ptDur = s.cfg.ceiling + 1 ∧
      (∀ level, exec (.measureLevel level) s = .next { s with unitExp := level, unitCount := 0 }) ∧
      (∀ ignored, exec (.ptNop ignored) s =
        .next { s with unitBusy := false, unitCount := s.cfg.ceiling + 1 })) ∧
    (s.now.pinIn = s.unitExp → s.unitCount ≠ s.cfg.ceiling →
      s.ptDone = false ∧
      (∀ level, exec (.measureLevel level) s = .next { s with unitCount := s.unitCount + 1 }) ∧
      (∀ ignored, exec (.ptNop ignored) s = .next { s with unitCount := s.unitCount + 1 }))

/-- 40_pulse_timer.md R101, and R103 (the spec's own inference), on the unit run by `step`: a command to the idle
unit, and nothing after it, makes the unit deliver `measureFn` of the samples that follow, at the tick of the last
sample consumed and at no tick before, and leaves it idle. -/
def Obligations.UnitDeliversTheMeasure : Prop :=
  ∀ (s : State) (level : Level), s.unitPort = .bench → s.unitBusy = false → s.now.ptStart = true →
    s.now.ptLevel = level →
    let m := measureFn s.cfg.ceiling level (fun j => (s.inputAt (j + 1)).pinIn) 0
    s.NoReset (m.2 + 1) → (∀ j, j < m.2 → (s.inputAt (j + 1)).ptStart = false) →
    (∃ t u, State.After m.2 s t ∧ t.unitOutput = some m.1 ∧ step t = .next u ∧ u.unitBusy = false) ∧
    (∀ k t, k < m.2 → State.After k s t → t.unitOutput = none)

/-- 40_pulse_timer.md R109, which the spec marks as its own inference: from any state in which a measurement of the
unit is in progress it ends within `CEILING + 1` samples, whatever the line does and whoever drives the unit. -/
def Obligations.EveryMeasurementEnds : Prop :=
  ∀ s : State, s.UnitInv → s.unitBusy = true → s.NoReset (s.cfg.ceiling + 1) →
    ∃ k t, k + s.unitCount ≤ s.cfg.ceiling ∧ State.After k s t ∧ t.ptDone = true

/-- 40_pulse_timer.md R108: the pulse_timer's operations change no register of the block, so neither pin output; and
beside their operand and the unit's own registers they read `pin_in` and nothing else. -/
def Obligations.MeasuringNeverTouchesThePin : Prop :=
  ∀ (i : Instr) (level : Level), i = .measureLevel level ∨ i = .ptNop level →
    (∀ s t : State, exec i s = .next t → t.SameBlock s ∧ t.pinOe = s.pinOe ∧ t.pinOut = s.pinOut) ∧
    (∀ s s' t t' : State, s.SameUnit s' → s.cfg = s'.cfg → s.now.pinIn = s'.now.pinIn →
      exec i s = .next t → exec i s' = .next t' → t.SameUnit t')

/-- 40_pulse_timer.md R112, which the spec marks as its own inference: the unit's counter stays in 0 to `CEILING + 1`,
and in 0 to `CEILING` while it is busy; a tick keeps it, adds 1 or clears it; and it fits `DW` bits. -/
def Obligations.UnitCounterStaysInRange : Prop :=
  ∀ s t : State, s.UnitInv → step s = .next t →
    t.UnitInv ∧ (t.unitCount = s.unitCount ∨ t.unitCount = s.unitCount + 1 ∨ t.unitCount = 0) ∧
    (s.cfg.ceiling + 2 ≤ 2 ^ s.cfg.dw → t.unitCount < 2 ^ s.cfg.dw)

/-- 30_encoding.md R74, R80: the bits the unit delivers are those of a Pulse Duration, and no other combination. -/
def Obligations.DeliveredDurationsAreWellFormed : Prop :=
  ∀ s : State, s.UnitInv → s.ptDone = true → durBitsWellFormed s.cfg.ceiling s.ptTimeout s.ptDur = true

/-- 40_pulse_timer.md R106 and 30_encoding.md R83 (`CELL`), on the sample function of R103: between a HIGH and a LOW
pulse, a LOW pulse of `l + 1` ticks and a HIGH pulse of `h + 1` ticks measure exactly `l` and `h`: the first tick of
each ends the measurement before, which consumes it and does not count it. -/
def Obligations.ChainedMeasurementsCountOneLess : Prop :=
  ∀ (ceiling l h p : Nat) (samples : Nat → Level), 1 ≤ ceiling → l ≤ ceiling → h ≤ ceiling →
    samples p = .high →
    (∀ j, j < l + 1 → samples (p + 1 + j) = .low) → (∀ j, j < h + 1 → samples (p + l + 2 + j) = .high) →
    samples (p + l + h + 3) = .low →
    measureFn ceiling .high samples p = (.count 1, 2) ∧
    measureFn ceiling .low samples (p + 2) = (.count l, l + 1) ∧
    measureFn ceiling .high samples (p + l + 3) = (.count h, h + 1)

/-! ### The phase micro-operations -/

/-- 41_protocol_engine.md R122. -/
def Obligations.IdleWaitsForRead : Prop :=
  (∀ s : State, s.now.start = true → exec .idle s = .next { s with
      phase := .reqLow, delayCnt := 0, measIdx := 0, result := .success, measValid := false,
      meas := #v[0, 0, 0, 0] }) ∧
  (∀ s : State, s.now.start = false → exec .idle s = .next s) ∧
  (∀ s t : State, s.now.start = true → exec .idle s = .next t → t.busy = true ∧ t.resultOut = 0) ∧
  (∀ s : State, s.phase = .idle → s.pinOe = false ∧ s.busy = false)

/-- 41_protocol_engine.md R123: the tick rule of `REQ_LOW`, the LOW drive, and that the phase lasts exactly
`REQ_LOW_TICKS` ticks. -/
def Obligations.RequestLowHoldsItsTicks : Prop :=
  (∀ s : State, s.delayCnt = s.cfg.reqLowTicks - 1 →
    exec .reqLow s = .next { s with phase := .reqHigh, delayCnt := 0 }) ∧
  (∀ s : State, s.delayCnt ≠ s.cfg.reqLowTicks - 1 →
    exec .reqLow s = .next { s with delayCnt := s.delayCnt + 1 }) ∧
  (∀ s : State, s.phase = .reqLow → s.pinOe = true ∧ s.pinOut = .low) ∧
  (∀ s : State, 1 ≤ s.cfg.reqLowTicks → s.phase = .reqLow → s.delayCnt = 0 → s.NoReset s.cfg.reqLowTicks →
    (∀ k, k < s.cfg.reqLowTicks → ∃ t, State.After k s t ∧ t.phase = .reqLow ∧ t.delayCnt = k) ∧
    ∃ t, State.After s.cfg.reqLowTicks s t ∧ t.phase = .reqHigh ∧ t.delayCnt = 0)

/-- 41_protocol_engine.md R124: the tick rule of `REQ_HIGH`, the HIGH drive, that the phase lasts exactly
`REQ_HIGH_TICKS` ticks, and the release of the line at its end. -/
def Obligations.RequestHighHoldsItsTicks : Prop :=
  (∀ s : State, s.delayCnt = s.cfg.reqHighTicks - 1 →
    exec .reqHigh s = .next { s with phase := .ackLow, delayCnt := 0, ptCount := 0 }) ∧
  (∀ s : State, s.delayCnt ≠ s.cfg.reqHighTicks - 1 →
    exec .reqHigh s = .next { s with delayCnt := s.delayCnt + 1 }) ∧
  (∀ s : State, s.phase = .reqHigh → s.pinOe = true ∧ s.pinOut = .high) ∧
  (∀ s : State, 1 ≤ s.cfg.reqHighTicks → s.phase = .reqHigh → s.delayCnt = 0 → s.NoReset s.cfg.reqHighTicks →
    (∀ k, k < s.cfg.reqHighTicks → ∃ t, State.After k s t ∧ t.phase = .reqHigh ∧ t.delayCnt = k) ∧
    ∃ t, State.After s.cfg.reqHighTicks s t ∧ t.phase = .ackLow ∧ t.delayCnt = 0 ∧ t.ptCount = 0 ∧
      t.pinOe = false)

/-- 41_protocol_engine.md R125. -/
def Obligations.AckLowMeasuresTheAcknowledgement : Prop :=
  ∀ s : State,
    (s.now.pinIn = .high → exec .ackLow s = .next { s with ptCount := 0, phase := .ackHigh }) ∧
    (s.now.pinIn = .low → s.ptCount ≠ s.cfg.ceiling →
      exec .ackLow s = .next { s with ptCount := s.ptCount + 1 }) ∧
    (s.now.pinIn = .low → s.ptCount = s.cfg.ceiling →
      exec .ackLow s = .next { s with phase := .done, result := .timeout, ptCount := s.cfg.ceiling + 1 }) ∧
    (s.phase = .ackLow → s.pinOe = false)

/-- 41_protocol_engine.md R126: the tick rule of `ACK_HIGH`, and that from its `Done` arm on `rvalid = 1` and `result`
reads ResponseReady until the read ends. -/
def Obligations.AckHighEndsTheHandshake : Prop :=
  (∀ s : State, s.now.pinIn = .low → exec .ackHigh s = .next { s with
      ptCount := 0, phase := .frame, measIdx := 0, result := .responseReady }) ∧
  (∀ s : State, s.now.pinIn = .high → s.ptCount ≠ s.cfg.ceiling →
    exec .ackHigh s = .next { s with ptCount := s.ptCount + 1 }) ∧
  (∀ s : State, s.now.pinIn = .high → s.ptCount = s.cfg.ceiling →
    exec .ackHigh s = .next { s with phase := .done, result := .timeout, ptCount := s.cfg.ceiling + 1 }) ∧
  (∀ s : State, s.phase = .ackHigh → s.pinOe = false) ∧
  (∀ s t : State, s.now.pinIn = .low → exec .ackHigh s = .next t → t.rvalid = true ∧ t.resultOut = 1) ∧
  (∀ s t : State, s.now.rst = false → s.phase = .frame ∨ s.phase = .decode ∨ s.phase = .verify →
    s.result = .responseReady → step s = .next t →
    t.phase = .done ∨ (t.rvalid = true ∧ t.result = .responseReady))

/-- 41_protocol_engine.md R127: the tick rule of `FRAME`, for even and odd indices and for the last one. -/
def Obligations.FrameMeasuresTheDataDurations : Prop :=
  ∀ s : State,
    let expected : Level := if s.measIdx.val % 2 = 0 then .low else .high
    (s.now.pinIn ≠ expected → (h : s.measIdx.val < 79) → exec .frame s = .next { s with
      dur := s.dur.set s.measIdx s.ptCount, ptCount := 0, measIdx := ⟨s.measIdx.val + 1, by omega⟩ }) ∧
    (s.now.pinIn ≠ expected → s.measIdx.val = 79 → exec .frame s = .next { s with
      dur := s.dur.set s.measIdx s.ptCount, ptCount := 0, phase := .decode }) ∧
    (s.now.pinIn = expected → s.ptCount ≠ s.cfg.ceiling →
      exec .frame s = .next { s with ptCount := s.ptCount + 1 }) ∧
    (s.now.pinIn = expected → s.ptCount = s.cfg.ceiling →
      exec .frame s = .next { s with phase := .done, result := .timeout, ptCount := s.cfg.ceiling + 1 }) ∧
    (s.phase = .frame → s.pinOe = false)

/-- 41_protocol_engine.md R128: in each measuring phase, at a matching sample when the count has reached the ceiling,
the tick writes `phase`, `result` and `pt_count` and nothing else; so in every state that meets the invariants the
block then shows no Measurement and holds the line released, and the phase it is in is `DONE`, not `DECODE` or
`VERIFY`. -/
def Obligations.TimeoutAbortsTheRead : Prop :=
  ∀ s : State, measuring s.phase = true → s.now.pinIn = s.expectedLevel → s.ptCount = s.cfg.ceiling →
    exec (microOp s.phase) s =
      .next { s with phase := .done, result := .timeout, ptCount := s.cfg.ceiling + 1 } ∧
    ∀ t, s.Inv → exec (microOp s.phase) s = .next t →
      t.measValid = false ∧ t.meas = #v[0, 0, 0, 0] ∧ t.pinOe = false

/-- 41_protocol_engine.md R129: one tick, all forty strict comparisons, all five bytes most significant bit first. -/
def Obligations.DecodePacksTheFortyBits : Prop :=
  ∀ s : State, ∃ t, exec .decode s = .next t ∧
    t = { s with frame := t.frame, phase := .verify } ∧
    (∀ (k : Fin 5) (j : Fin 8), t.frame[k].getLsbD (7 - j.val) =
      decide (s.dur[2 * (8 * k.val + j.val)]'(by omega) < s.dur[2 * (8 * k.val + j.val) + 1]'(by omega))) ∧
    (s.phase = .decode → s.pinOe = false)

/-- 41_protocol_engine.md R130: the checksum test, publishing and failing. -/
def Obligations.VerifyTestsTheChecksum : Prop :=
  ∀ s : State,
    let sum := (s.frame[0].toNat + s.frame[1].toNat + s.frame[2].toNat + s.frame[3].toNat) % 256
    (sum = s.frame[4].toNat → exec .verify s = .next { s with
      meas := #v[s.frame[0], s.frame[1], s.frame[2], s.frame[3]], measValid := true, result := .success,
      phase := .done }) ∧
    (sum ≠ s.frame[4].toNat → exec .verify s = .next { s with result := .checksumMismatch, phase := .done }) ∧
    (s.phase = .verify → s.pinOe = false)

/-- 41_protocol_engine.md R131. -/
def Obligations.DoneHoldsTheResults : Prop :=
  (∀ s : State, s.now.start = true → exec .done s = .next { s with
      phase := .reqLow, delayCnt := 0, measIdx := 0, result := .success, measValid := false,
      meas := #v[0, 0, 0, 0] }) ∧
  (∀ s : State, s.now.start = false → exec .done s = .next s) ∧
  (∀ s : State, exec .done s = exec .idle s) ∧
  (∀ s : State, s.phase = .done → s.doneOut = true ∧ s.busy = false ∧ s.pinOe = false)

/-- The model's choice (log 6): a response row of the table is executed as the writes of the rule the row names,
41_protocol_engine.md R130 for Success and ChecksumMismatch, R126 for ResponseReady and R128 for Timeout; and the
micro-operations that give those responses do exactly that. -/
def Obligations.ResponsesAreTheWritesOfTheirRules : Prop :=
  (∀ s : State, exec .resSuccess s = .next { s with
      meas := #v[s.frame[0], s.frame[1], s.frame[2], s.frame[3]], measValid := true, result := .success,
      phase := .done }) ∧
  (∀ s : State, exec .resResponseReady s = .next { s with
      ptCount := 0, phase := .frame, measIdx := 0, result := .responseReady }) ∧
  (∀ s : State, exec .resChecksumMismatch s = .next { s with result := .checksumMismatch, phase := .done }) ∧
  (∀ s : State, exec .resTimeout s = .next { s with
      phase := .done, result := .timeout, ptCount := s.cfg.ceiling + 1 }) ∧
  (∀ s : State, exec .verify s = exec .resSuccess s ∨ exec .verify s = exec .resChecksumMismatch s) ∧
  (∀ s : State, s.now.pinIn = .low → exec .ackHigh s = exec .resResponseReady s) ∧
  (∀ s : State, measuring s.phase = true → s.now.pinIn = s.expectedLevel → s.ptCount = s.cfg.ceiling →
    exec (microOp s.phase) s = exec .resTimeout s)

/-! ### Outputs and data formats -/

/-- 10_state.md R30: every output is a function of the current state, as its table says; `result` with the four codes
of 30_encoding.md R73. -/
def Obligations.OutputsFollowThePhase : Prop :=
  ∀ s : State,
    (s.outputs.busy = true ↔ s.phase ≠ .idle ∧ s.phase ≠ .done) ∧
    (s.outputs.done = true ↔ s.phase = .done) ∧
    (s.outputs.rvalid = true ↔ s.phase = .frame ∨ s.phase = .decode ∨ s.phase = .verify ∨ s.phase = .done) ∧
    (s.outputs.result = match s.result with
      | .success => 0
      | .responseReady => 1
      | .checksumMismatch => 2
      | .timeout => 3) ∧
    s.outputs.measValid = s.measValid ∧
    s.outputs.humInt = s.meas[0] ∧ s.outputs.humFrac = s.meas[1] ∧ s.outputs.tempInt = s.meas[2] ∧
    s.outputs.tempFrac = s.meas[3] ∧
    (s.outputs.pinOe = true ↔ s.phase = .reqLow ∨ s.phase = .reqHigh) ∧
    (s.outputs.pinOut = .low ↔ s.phase = .reqLow)

/-- 20_memory.md R54: data bit `i`, in order of arrival, is bit `7 − (i mod 8)` of `frame[i div 8]`, and bit `39 − i`
of the frame taken as one 40-bit number (that reading the spec marks as its own inference). -/
def Obligations.FirstBitReceivedIsMostSignificant : Prop :=
  ∀ (dur : Vector Nat 80) (i : Fin 40),
    ((decodeFrame dur)[i.val / 8]'(by omega)).getLsbD (7 - i.val % 8) = dataBit dur i ∧
    (frameWord (decodeFrame dur)).getLsbD (39 - i.val) = dataBit dur i

/-- 41_protocol_engine.md R138 (c): the exact sum is at most 1020; truncated to its low 8 bits it is what an 8-bit
register gives that drops the carries. -/
def Obligations.ChecksumDropsTheCarries : Prop :=
  ∀ f : Vector Byte 5,
    f[0].toNat + f[1].toNat + f[2].toNat + f[3].toNat ≤ 1020 ∧
    (checksum f).toNat = (f[0].toNat + f[1].toNat + f[2].toNat + f[3].toNat) % 256 ∧
    checksum f = f[0] + f[1] + f[2] + f[3] ∧
    (checksumOk f = true ↔ (f[0].toNat + f[1].toNat + f[2].toNat + f[3].toNat) % 256 = f[4].toNat)

/-- 00_scope.md R5, R6: the default parameters are a configuration of this hardware. That the reset state holds them
is the model's choice (log 1). -/
def Obligations.DefaultConfigurationIsValid : Prop :=
  State.reset.cfg = { tTickUs := 10, ceiling := 100, reqLowTicks := 2000, reqHighTicks := 5, dw := 8, dlw := 11 } ∧
  State.reset.cfg.WellFormed

/-! ### The tick -/

/-- A tick without reset runs the operations the ports hold: the one decoded from the unit's command port and the one
the phase register selects, both on the state before the tick; the inputs of the tick are then spent. The unit's
operation changes only the unit's registers and the phase's only the block's. That the two run side by side is the
model's choice (log 7), and so are the inputs held as a list with a tick counter (log 2) and `unitPort` (log 4). -/
def Obligations.StepRunsTheFetchedOperations : Prop :=
  ∀ (s : State) (u i : Instr), s.now.rst = false → decode .ptcmd s.ptCommandWord = .ok u →
    decode .phase s.phase.code = .ok i →
    ∃ a b t, exec u s = .next a ∧ exec i s = .next b ∧ step s = .next t ∧
      t.SameBlock b ∧ t.SameUnit a ∧ a.SameBlock s ∧ b.SameUnit s ∧
      t.inputs = s.inputs.tail ∧ t.tick = s.tick + 1 ∧ t.unitPort = s.unitPort ∧ t.cfg = s.cfg

/-- The model's choice (logs 8 and 12), its loading function: a word of the table, placed, is what the next tick
fetches from its port, and no reset comes in its way. -/
def Obligations.PlacedWordIsFetched : Prop :=
  ∀ (s : State) (nbits w : Nat) (i : Instr), decodeTableWord nbits w = some i →
    let t := s.withFetchWord nbits w
    t.now.rst = false ∧
    (nbits = 1 → decode .cmd t.cmdWord = .ok i) ∧
    (nbits = 2 → t.fetchUnit = .ok i) ∧
    (nbits ≠ 1 → nbits ≠ 2 → t.fetchPhase = .ok i)

/-- 60_exceptions.md R160, 00_scope.md R10: the block never stops. From every state a tick leads to a next state: no
fault and no refusal. -/
def Obligations.BlockNeverStops : Prop :=
  ∀ s : State, ∃ t, step s = .next t

/-- 10_state.md R33, 60_exceptions.md R175: no tick changes a parameter; a tick spends one record of inputs. The list
of inputs and the tick counter are the model's choice (log 2), and so is `unitPort` (log 4). -/
def Obligations.ConfigurationIsNeverWritten : Prop :=
  ∀ s t : State, step s = .next t →
    t.cfg = s.cfg ∧ t.unitPort = s.unitPort ∧ t.inputs = s.inputs.tail ∧ t.tick = s.tick + 1

/-- 41_protocol_engine.md R121, which the spec marks as its own inference: the complete transition relation of
`phase`, and `rst = 1`. -/
def Obligations.PhaseTransitionsAreTheTable : Prop :=
  ∀ s t : State, step s = .next t →
    (s.now.rst = true → t.phase = .idle) ∧
    (s.now.rst = false →
      (s.phase = .idle → t.phase = if s.now.start = true then .reqLow else .idle) ∧
      (s.phase = .reqLow → t.phase = if s.delayCnt = s.cfg.reqLowTicks - 1 then .reqHigh else .reqLow) ∧
      (s.phase = .reqHigh → t.phase = if s.delayCnt = s.cfg.reqHighTicks - 1 then .ackLow else .reqHigh) ∧
      (s.phase = .ackLow → t.phase =
        match ptStep s.cfg.ceiling .low s.ptCount s.now.pinIn with
        | .continues _ => .ackLow
        | .done _ => .ackHigh
        | .timedOut => .done) ∧
      (s.phase = .ackHigh → t.phase =
        match ptStep s.cfg.ceiling .high s.ptCount s.now.pinIn with
        | .continues _ => .ackHigh
        | .done _ => .frame
        | .timedOut => .done) ∧
      (s.phase = .frame → t.phase =
        match ptStep s.cfg.ceiling (levelOfIndex s.measIdx) s.ptCount s.now.pinIn with
        | .continues _ => .frame
        | .done _ => if s.measIdx.val < 79 then .frame else .decode
        | .timedOut => .done) ∧
      (s.phase = .decode → t.phase = .verify) ∧
      (s.phase = .verify → t.phase = .done) ∧
      (s.phase = .done → t.phase = if s.now.start = true then .reqLow else .done))

/-- 10_state.md R20 (column "written by"), R32: without reset each register changes only in the phases whose rules
write it. -/
def Obligations.RegistersChangeOnlyByTheirRules : Prop :=
  ∀ s t : State, s.now.rst = false → step s = .next t →
    (t.delayCnt ≠ s.delayCnt →
      s.phase = .idle ∨ s.phase = .done ∨ s.phase = .reqLow ∨ s.phase = .reqHigh) ∧
    (t.ptCount ≠ s.ptCount →
      s.phase = .reqHigh ∨ s.phase = .ackLow ∨ s.phase = .ackHigh ∨ s.phase = .frame) ∧
    (t.measIdx ≠ s.measIdx →
      s.phase = .idle ∨ s.phase = .done ∨ s.phase = .ackHigh ∨ s.phase = .frame) ∧
    (t.dur ≠ s.dur → s.phase = .frame) ∧
    (t.frame ≠ s.frame → s.phase = .decode) ∧
    (t.meas ≠ s.meas ∨ t.measValid ≠ s.measValid → s.phase = .idle ∨ s.phase = .done ∨ s.phase = .verify) ∧
    (t.result ≠ s.result → s.phase ≠ .reqLow ∧ s.phase ≠ .reqHigh ∧ s.phase ≠ .decode)

/-- 20_memory.md R53 and 10_state.md R25: without reset an entry of `dur` changes only when a data measurement ends
normally in `FRAME`, only the entry `meas_idx`, and it then holds the count, which in a state that meets the
invariants is at most `CEILING`: the sentinel is never stored (10_state.md R34 item 5, for whatever read wrote the
entry). -/
def Obligations.OnlyTheMeasuredDurationIsStored : Prop :=
  ∀ (s t : State) (j : Fin 80), s.now.rst = false → step s = .next t → t.dur[j] ≠ s.dur[j] →
    s.phase = .frame ∧ j = s.measIdx ∧ s.now.pinIn ≠ levelOfIndex s.measIdx ∧ t.dur[j] = s.ptCount ∧
    (s.Inv → t.dur[j] ≤ s.cfg.ceiling)

/-- 41_protocol_engine.md R140, which the spec marks as its own inference: outside the measuring phases `pin_in` does
not matter; outside `IDLE` and `DONE` `start` does not; and in the four other phases the next state is a function of
the current state alone. -/
def Obligations.IgnoredInputsDoNotMatter : Prop :=
  ∀ s s' t t' : State, s.SameBlock s' → s.now.rst = false → s'.now.rst = false →
    step s = .next t → step s' = .next t' →
    (measuring s.phase = false → s.now.start = s'.now.start → t.SameBlock t') ∧
    (accepting s.phase = false → s.now.pinIn = s'.now.pinIn → t.SameBlock t') ∧
    (s.phase = .reqLow ∨ s.phase = .reqHigh ∨ s.phase = .decode ∨ s.phase = .verify → t.SameBlock t')

/-- 60_exceptions.md R165, R162: a Timeout arises only in a measuring phase, at a matching sample when the count has
reached the ceiling; a ChecksumMismatch only at the `VERIFY` tick, when the test fails; and either ends the read at
that tick with no Measurement. -/
def Obligations.FailuresAriseOnlyAtTheirTicks : Prop :=
  ∀ s t : State, s.Inv → s.now.rst = false → step s = .next t →
    (t.result = .timeout → s.result ≠ .timeout →
      measuring s.phase = true ∧ s.now.pinIn = s.expectedLevel ∧ s.ptCount = s.cfg.ceiling ∧
      t.phase = .done ∧ t.ptCount = s.cfg.ceiling + 1 ∧ t.measValid = false ∧ t.frame = s.frame ∧
      t.measIdx = s.measIdx) ∧
    (t.result = .checksumMismatch → s.result ≠ .checksumMismatch →
      s.phase = .verify ∧ checksumOk s.frame = false ∧ t.phase = .done ∧ t.measValid = false)

/-! ### Invariants -/

/-- 10_state.md R34, R31 and 40_pulse_timer.md R112, with the reset values of 10_state.md R36 and R31: after reset the
invariants of the block hold, the unit's counter is in its range, and the unit agrees with the engine. -/
def Obligations.InvariantsHoldAtReset : Prop :=
  State.reset.Inv ∧ State.reset.UnitInv ∧ State.reset.UnitAgrees

/-- 10_state.md R34, which the spec marks as its own inference: the invariants are kept by every step, from every
state that meets them and for every configuration. -/
def Obligations.InvariantsAreKeptByEveryStep : Prop :=
  ∀ s t : State, s.Inv → step s = .next t → t.Inv

/-- 10_state.md R22, R23, R24 and 40_pulse_timer.md R112: after any tick from a state that meets the invariants, each
counter fits its width, so none ever wraps. -/
def Obligations.CountersNeverWrap : Prop :=
  ∀ s t : State, s.cfg.Runnable → s.Inv → s.UnitInv → step s = .next t →
    t.delayCnt < 2 ^ t.cfg.dlw ∧ t.ptCount < 2 ^ t.cfg.dw ∧ t.unitCount < 2 ^ t.cfg.dw ∧ t.measIdx.val < 2 ^ 7

/-- 10_state.md R31: the unit's registers after reset; and inside the block they are functions of the engine's at
every tick, with the engine driving the unit's port as 41_protocol_engine.md R133 says. -/
def Obligations.UnitMirrorsTheEngine : Prop :=
  State.reset.unitBusy = false ∧ State.reset.unitExp = .low ∧ State.reset.unitCount = 0 ∧
  State.reset.UnitAgrees ∧
  ∀ s t : State, s.unitPort = .engine → s.UnitAgrees → step s = .next t →
    t.UnitAgrees ∧ (t.unitBusy = true ↔ t.phase = .ackLow ∨ t.phase = .ackHigh ∨ t.phase = .frame) ∧
    (t.phase = .ackLow → t.unitExp = .low) ∧ (t.phase = .ackHigh → t.unitExp = .high) ∧
    (t.phase = .frame → t.unitExp = if t.measIdx.val % 2 = 0 then .low else .high)

/-! ### Whole reads -/

/-- 41_protocol_engine.md R134, which the spec marks as its own inference: the wired form of R133 and the normative
step function are the same machine. From every state in which the unit agrees with the engine that drives it, a step
is the wired form's tick, and the unit agrees again; so from the reset state, with any configuration, any contents of
`dur` and under any inputs, the whole states agree at every tick, the unit's count is the block's, and the unit is
busy exactly in the measuring phases. -/
def Obligations.WiredFormIsTheSameMachine : Prop :=
  (∀ s : State, s.unitPort = .engine → s.UnitAgrees →
    step s = .next (wiredStep s) ∧ (wiredStep s).UnitAgrees) ∧
  (∀ (cfg : Config) (dur : Vector Nat 80) (inputs : List Inputs) (k : Nat),
    let s : State := { State.reset with cfg := cfg, dur := dur, inputs := inputs }
    State.After k s (wiredRun k s) ∧ (wiredRun k s).unitCount = (wiredRun k s).ptCount ∧
      (wiredRun k s).unitBusy = measuring (wiredRun k s).phase)

/-- 41_protocol_engine.md R135 (and R136 for the tick), which the spec marks as its own inferences: a read accepted in
any state, with no reset before it ends, ends with what `read_fn` gives for the samples of its measuring phases, and
`done` is first 1 exactly then. No sample beyond those consumed matters, and their number is bounded. -/
def Obligations.ReadGivesWhatReadFnGives : Prop :=
  ∀ s : State, s.Accepts → 1 ≤ s.cfg.reqLowTicks → 1 ≤ s.cfg.reqHighTicks →
    let first := s.cfg.reqLowTicks + s.cfg.reqHighTicks + 1
    let samples := fun j => (s.inputAt (first + j)).pinIn
    let r := readFn s.cfg.ceiling samples
    let last := first + r.consumed + (if r.result = .timeout then 0 else 2)
    (∀ other : Nat → Level, (∀ j, j < r.consumed → other j = samples j) → readFn s.cfg.ceiling other = r) ∧
    (r.result ≠ .timeout → 82 ≤ r.consumed ∧ r.consumed ≤ 82 * (s.cfg.ceiling + 1)) ∧
    (s.NoReset last →
      (∃ t, State.After last s t ∧ t.doneOut = true ∧ t.result = r.result ∧
        t.measValid = r.measurement.isSome ∧ t.meas = r.measurement.getD #v[0, 0, 0, 0]) ∧
      (∀ k t, 1 ≤ k → k < last → State.After k s t → t.doneOut = false ∧ t.measValid = false))

/-- 41_protocol_engine.md R136, which the spec marks as its own inference: the events of a read at their ticks, from
the tick it is accepted, with `k2` the samples its two handshake measurements consume, and `k` those of all its
measurements up to its end. -/
def Obligations.ReadPhasesStandAtTheirTicks : Prop :=
  ∀ s : State, s.Accepts → 1 ≤ s.cfg.reqLowTicks → 1 ≤ s.cfg.reqHighTicks →
    let first := s.cfg.reqLowTicks + s.cfg.reqHighTicks + 1
    let samples := fun j => (s.inputAt (first + j)).pinIn
    (s.NoReset first → ∀ n t, State.After n s t →
      (1 ≤ n → n ≤ s.cfg.reqLowTicks → t.phase = .reqLow) ∧
      (s.cfg.reqLowTicks + 1 ≤ n → n < first → t.phase = .reqHigh) ∧
      (n = first → t.phase = .ackLow ∧ t.ptCount = 0)) ∧
    (∀ counts k2, measureRun s.cfg.ceiling samples 2 0 0 = .counted counts k2 → s.NoReset (first + k2) →
      ∀ n t, State.After n s t →
      (1 ≤ n → n < first + k2 → t.rvalid = false) ∧
      (n = first + k2 → t.rvalid = true ∧ t.result = .responseReady ∧ t.phase = .frame)) ∧
    (∀ counts k, measureRun s.cfg.ceiling samples 82 0 0 = .counted counts k → s.NoReset (first + k + 2) →
      ∀ n t, State.After n s t →
      (n = first + k → t.phase = .decode) ∧ (n = first + k + 1 → t.phase = .verify) ∧
      (n = first + k + 2 → t.doneOut = true) ∧ (1 ≤ n → n < first + k + 2 → t.doneOut = false)) ∧
    (∀ number k, measureRun s.cfg.ceiling samples 82 0 0 = .timedOut number k → s.NoReset (first + k) →
      ∀ n t, State.After n s t →
      (n = first + k → t.doneOut = true ∧ t.result = .timeout) ∧
      (1 ≤ n → n < first + k → t.doneOut = false))

/-- 70_reset_and_hazards.md R192, which the spec marks as its own inference: a read ends within its bound for every
sequence of line levels, and from any state that meets the invariants the block reaches `IDLE` or `DONE` within that
many ticks and stays there until `start`. -/
def Obligations.ReadEndsWithinItsBound : Prop :=
  ∀ s : State, s.Inv → 1 ≤ s.cfg.reqLowTicks → 1 ≤ s.cfg.reqHighTicks →
    let bound := s.cfg.reqLowTicks + s.cfg.reqHighTicks + 82 * (s.cfg.ceiling + 1) + 3
    s.NoReset bound →
    (s.Accepts → ∃ k t, 1 ≤ k ∧ k ≤ bound ∧ State.After k s t ∧ t.doneOut = true) ∧
    (∃ k t, k ≤ bound ∧ State.After k s t ∧ (t.phase = .idle ∨ t.phase = .done)) ∧
    (∀ t, s.phase = .idle ∨ s.phase = .done → s.now.start = false → step s = .next t → t.phase = s.phase)

/-- 70_reset_and_hazards.md R186, the spec's own inference: no read reaches `DONE` before the state `REQ_LOW_TICKS +
REQ_HIGH_TICKS + 2` ticks after the accepting tick, so a `start` pulse no longer than the request phase is safe. -/
def Obligations.NoReadEndsBeforeItsFirstSample : Prop :=
  ∀ (s t : State) (k : Nat), s.Accepts → 1 ≤ s.cfg.reqLowTicks → 1 ≤ s.cfg.reqHighTicks →
    s.NoReset (s.cfg.reqLowTicks + s.cfg.reqHighTicks + 2) → 1 ≤ k →
    k < s.cfg.reqLowTicks + s.cfg.reqHighTicks + 2 → State.After k s t → t.doneOut = false ∧ t.busy = true

/-- 41_protocol_engine.md R137, which the spec marks as its own inference: after a read is accepted the outputs are a
function of the inputs from that tick on. Two blocks with the same configuration that accept a read at a tick,
whatever they hold from before, and get the same inputs from that tick on, show equal outputs at every later tick. -/
def Obligations.NothingLeaksBetweenReads : Prop :=
  ∀ (s s' : State) (k : Nat), s.cfg = s'.cfg → s.Accepts → s'.Accepts → (∀ j, s.inputAt j = s'.inputAt j) →
    ∃ t t', State.After (k + 1) s t ∧ State.After (k + 1) s' t' ∧ t.outputs = t'.outputs

/-- 70_reset_and_hazards.md R194, which the spec marks as its own inference: the Measurement and `result` are stable from
the first `DONE` tick until the next accepted `READ` or reset, and are cleared by either; while `meas_valid = 0` the
measurement ports read 0. -/
def Obligations.ResultsAreHeldUntilTheNextRead : Prop :=
  (∀ (s : State) (n : Nat), s.phase = .done → s.NoReset n → (∀ j, j < n → (s.inputAt j).start = false) →
    ∀ k, k ≤ n → ∃ t, State.After k s t ∧ t.outputs = s.outputs) ∧
  (∀ s t : State, s.phase = .done → s.now.rst = true ∨ s.now.start = true → step s = .next t →
    t.meas = #v[0, 0, 0, 0] ∧ t.measValid = false ∧ t.resultOut = 0 ∧ t.doneOut = false) ∧
  (∀ s : State, s.Inv → s.measValid = false →
    s.humInt = 0 ∧ s.humFrac = 0 ∧ s.tempInt = 0 ∧ s.tempFrac = 0)

/-- 30_encoding.md R77, R83 and the document's properties (95_test_vectors.md part 1, items 1 and 5 to 6): for every
frame, the nominal waveform of that frame is read as that frame. With a matching checksum byte the read gives Success
and the four bytes; otherwise ChecksumMismatch and no Measurement. -/
def Obligations.NominalFrameIsReadBack : Prop :=
  ∀ (ceiling : Nat) (f : Vector Byte 5), 7 ≤ ceiling →
    let r := readFn ceiling (nominalSamples f)
    ((f[0].toNat + f[1].toNat + f[2].toNat + f[3].toNat) % 256 = f[4].toNat →
      r.result = .success ∧ r.measurement = some #v[f[0], f[1], f[2], f[3]]) ∧
    ((f[0].toNat + f[1].toNat + f[2].toNat + f[3].toNat) % 256 ≠ f[4].toNat →
      r.result = .checksumMismatch ∧ r.measurement = none)

/-- 70_reset_and_hazards.md R187, the spec's own inference: the hazard of a late acknowledgement. If the line is still
HIGH at the first sample, `ACK_LOW` ends at once, its count 0, and the engine measures the idle HIGH as the ready
pulse. -/
def Obligations.LateAcknowledgementIsNotWaitedFor : Prop :=
  ∀ s : State, s.phase = .ackLow → s.ptCount = 0 → s.now.rst = false → s.now.pinIn = .high →
    ∃ t, step s = .next t ∧ t.phase = .ackHigh ∧ t.ptCount = 0 ∧ t.busy = true
end

