-- ==== Sys2Proof/Laws/State.lean ====
section
/-! SUPPORT. One lemma per field per named update of the state, each true by rfl, so that no proof unfolds a record
update. -/

namespace Sys2Proof.Machine

/-- The state with the unit's three registers replaced: every tick of the unit is of this form (`unitTick_eq`). -/
def State.withUnit (s : State) (b : Bool) (l : Level) (c : Nat) : State :=
  { s with unitBusy := b, unitExp := l, unitCount := c }

@[simp] theorem State.advance_cfg (s : State) : s.advance.cfg = s.cfg := rfl
@[simp] theorem State.advance_unitPort (s : State) : s.advance.unitPort = s.unitPort := rfl
@[simp] theorem State.advance_phase (s : State) : s.advance.phase = s.phase := rfl
@[simp] theorem State.advance_delayCnt (s : State) : s.advance.delayCnt = s.delayCnt := rfl
@[simp] theorem State.advance_ptCount (s : State) : s.advance.ptCount = s.ptCount := rfl
@[simp] theorem State.advance_measIdx (s : State) : s.advance.measIdx = s.measIdx := rfl
@[simp] theorem State.advance_dur (s : State) : s.advance.dur = s.dur := rfl
@[simp] theorem State.advance_frame (s : State) : s.advance.frame = s.frame := rfl
@[simp] theorem State.advance_meas (s : State) : s.advance.meas = s.meas := rfl
@[simp] theorem State.advance_measValid (s : State) : s.advance.measValid = s.measValid := rfl
@[simp] theorem State.advance_result (s : State) : s.advance.result = s.result := rfl
@[simp] theorem State.advance_unitBusy (s : State) : s.advance.unitBusy = s.unitBusy := rfl
@[simp] theorem State.advance_unitExp (s : State) : s.advance.unitExp = s.unitExp := rfl
@[simp] theorem State.advance_unitCount (s : State) : s.advance.unitCount = s.unitCount := rfl
@[simp] theorem State.advance_inputs (s : State) : s.advance.inputs = s.inputs.tail := rfl
@[simp] theorem State.advance_tick (s : State) : s.advance.tick = s.tick + 1 := rfl

@[simp] theorem State.acceptRead_cfg (s : State) : s.acceptRead.cfg = s.cfg := rfl
@[simp] theorem State.acceptRead_unitPort (s : State) : s.acceptRead.unitPort = s.unitPort := rfl
@[simp] theorem State.acceptRead_phase (s : State) : s.acceptRead.phase = .reqLow := rfl
@[simp] theorem State.acceptRead_delayCnt (s : State) : s.acceptRead.delayCnt = 0 := rfl
@[simp] theorem State.acceptRead_ptCount (s : State) : s.acceptRead.ptCount = s.ptCount := rfl
@[simp] theorem State.acceptRead_measIdx (s : State) : s.acceptRead.measIdx = 0 := rfl
@[simp] theorem State.acceptRead_dur (s : State) : s.acceptRead.dur = s.dur := rfl
@[simp] theorem State.acceptRead_frame (s : State) : s.acceptRead.frame = s.frame := rfl
@[simp] theorem State.acceptRead_meas (s : State) : s.acceptRead.meas = #v[0, 0, 0, 0] := rfl
@[simp] theorem State.acceptRead_measValid (s : State) : s.acceptRead.measValid = false := rfl
@[simp] theorem State.acceptRead_result (s : State) : s.acceptRead.result = .success := rfl
@[simp] theorem State.acceptRead_unitBusy (s : State) : s.acceptRead.unitBusy = s.unitBusy := rfl
@[simp] theorem State.acceptRead_unitExp (s : State) : s.acceptRead.unitExp = s.unitExp := rfl
@[simp] theorem State.acceptRead_unitCount (s : State) : s.acceptRead.unitCount = s.unitCount := rfl
@[simp] theorem State.acceptRead_inputs (s : State) : s.acceptRead.inputs = s.inputs := rfl
@[simp] theorem State.acceptRead_tick (s : State) : s.acceptRead.tick = s.tick := rfl

@[simp] theorem State.publish_cfg (s : State) : s.publish.cfg = s.cfg := rfl
@[simp] theorem State.publish_unitPort (s : State) : s.publish.unitPort = s.unitPort := rfl
@[simp] theorem State.publish_phase (s : State) : s.publish.phase = .done := rfl
@[simp] theorem State.publish_delayCnt (s : State) : s.publish.delayCnt = s.delayCnt := rfl
@[simp] theorem State.publish_ptCount (s : State) : s.publish.ptCount = s.ptCount := rfl
@[simp] theorem State.publish_measIdx (s : State) : s.publish.measIdx = s.measIdx := rfl
@[simp] theorem State.publish_dur (s : State) : s.publish.dur = s.dur := rfl
@[simp] theorem State.publish_frame (s : State) : s.publish.frame = s.frame := rfl
@[simp] theorem State.publish_meas (s : State) : s.publish.meas = #v[s.frame[0], s.frame[1], s.frame[2], s.frame[3]] := rfl
@[simp] theorem State.publish_measValid (s : State) : s.publish.measValid = true := rfl
@[simp] theorem State.publish_result (s : State) : s.publish.result = .success := rfl
@[simp] theorem State.publish_unitBusy (s : State) : s.publish.unitBusy = s.unitBusy := rfl
@[simp] theorem State.publish_unitExp (s : State) : s.publish.unitExp = s.unitExp := rfl
@[simp] theorem State.publish_unitCount (s : State) : s.publish.unitCount = s.unitCount := rfl
@[simp] theorem State.publish_inputs (s : State) : s.publish.inputs = s.inputs := rfl
@[simp] theorem State.publish_tick (s : State) : s.publish.tick = s.tick := rfl

@[simp] theorem State.responseReady_cfg (s : State) : s.responseReady.cfg = s.cfg := rfl
@[simp] theorem State.responseReady_unitPort (s : State) : s.responseReady.unitPort = s.unitPort := rfl
@[simp] theorem State.responseReady_phase (s : State) : s.responseReady.phase = .frame := rfl
@[simp] theorem State.responseReady_delayCnt (s : State) : s.responseReady.delayCnt = s.delayCnt := rfl
@[simp] theorem State.responseReady_ptCount (s : State) : s.responseReady.ptCount = 0 := rfl
@[simp] theorem State.responseReady_measIdx (s : State) : s.responseReady.measIdx = 0 := rfl
@[simp] theorem State.responseReady_dur (s : State) : s.responseReady.dur = s.dur := rfl
@[simp] theorem State.responseReady_frame (s : State) : s.responseReady.frame = s.frame := rfl
@[simp] theorem State.responseReady_meas (s : State) : s.responseReady.meas = s.meas := rfl
@[simp] theorem State.responseReady_measValid (s : State) : s.responseReady.measValid = s.measValid := rfl
@[simp] theorem State.responseReady_result (s : State) : s.responseReady.result = .responseReady := rfl
@[simp] theorem State.responseReady_unitBusy (s : State) : s.responseReady.unitBusy = s.unitBusy := rfl
@[simp] theorem State.responseReady_unitExp (s : State) : s.responseReady.unitExp = s.unitExp := rfl
@[simp] theorem State.responseReady_unitCount (s : State) : s.responseReady.unitCount = s.unitCount := rfl
@[simp] theorem State.responseReady_inputs (s : State) : s.responseReady.inputs = s.inputs := rfl
@[simp] theorem State.responseReady_tick (s : State) : s.responseReady.tick = s.tick := rfl

@[simp] theorem State.abort_timeout_cfg (s : State) : (s.abort .timeout).cfg = s.cfg := rfl
@[simp] theorem State.abort_timeout_unitPort (s : State) : (s.abort .timeout).unitPort = s.unitPort := rfl
@[simp] theorem State.abort_timeout_phase (s : State) : (s.abort .timeout).phase = .done := rfl
@[simp] theorem State.abort_timeout_delayCnt (s : State) : (s.abort .timeout).delayCnt = s.delayCnt := rfl
@[simp] theorem State.abort_timeout_ptCount (s : State) : (s.abort .timeout).ptCount = s.cfg.ceiling + 1 := rfl
@[simp] theorem State.abort_timeout_measIdx (s : State) : (s.abort .timeout).measIdx = s.measIdx := rfl
@[simp] theorem State.abort_timeout_dur (s : State) : (s.abort .timeout).dur = s.dur := rfl
@[simp] theorem State.abort_timeout_frame (s : State) : (s.abort .timeout).frame = s.frame := rfl
@[simp] theorem State.abort_timeout_meas (s : State) : (s.abort .timeout).meas = s.meas := rfl
@[simp] theorem State.abort_timeout_measValid (s : State) : (s.abort .timeout).measValid = s.measValid := rfl
@[simp] theorem State.abort_timeout_result (s : State) : (s.abort .timeout).result = .timeout := rfl
@[simp] theorem State.abort_timeout_unitBusy (s : State) : (s.abort .timeout).unitBusy = s.unitBusy := rfl
@[simp] theorem State.abort_timeout_unitExp (s : State) : (s.abort .timeout).unitExp = s.unitExp := rfl
@[simp] theorem State.abort_timeout_unitCount (s : State) : (s.abort .timeout).unitCount = s.unitCount := rfl
@[simp] theorem State.abort_timeout_inputs (s : State) : (s.abort .timeout).inputs = s.inputs := rfl
@[simp] theorem State.abort_timeout_tick (s : State) : (s.abort .timeout).tick = s.tick := rfl

@[simp] theorem State.abort_mismatch_cfg (s : State) : (s.abort .checksumMismatch).cfg = s.cfg := rfl
@[simp] theorem State.abort_mismatch_unitPort (s : State) : (s.abort .checksumMismatch).unitPort = s.unitPort := rfl
@[simp] theorem State.abort_mismatch_phase (s : State) : (s.abort .checksumMismatch).phase = .done := rfl
@[simp] theorem State.abort_mismatch_delayCnt (s : State) : (s.abort .checksumMismatch).delayCnt = s.delayCnt := rfl
@[simp] theorem State.abort_mismatch_ptCount (s : State) : (s.abort .checksumMismatch).ptCount = s.ptCount := rfl
@[simp] theorem State.abort_mismatch_measIdx (s : State) : (s.abort .checksumMismatch).measIdx = s.measIdx := rfl
@[simp] theorem State.abort_mismatch_dur (s : State) : (s.abort .checksumMismatch).dur = s.dur := rfl
@[simp] theorem State.abort_mismatch_frame (s : State) : (s.abort .checksumMismatch).frame = s.frame := rfl
@[simp] theorem State.abort_mismatch_meas (s : State) : (s.abort .checksumMismatch).meas = s.meas := rfl
@[simp] theorem State.abort_mismatch_measValid (s : State) : (s.abort .checksumMismatch).measValid = s.measValid := rfl
@[simp] theorem State.abort_mismatch_result (s : State) : (s.abort .checksumMismatch).result = .checksumMismatch := rfl
@[simp] theorem State.abort_mismatch_unitBusy (s : State) : (s.abort .checksumMismatch).unitBusy = s.unitBusy := rfl
@[simp] theorem State.abort_mismatch_unitExp (s : State) : (s.abort .checksumMismatch).unitExp = s.unitExp := rfl
@[simp] theorem State.abort_mismatch_unitCount (s : State) : (s.abort .checksumMismatch).unitCount = s.unitCount := rfl
@[simp] theorem State.abort_mismatch_inputs (s : State) : (s.abort .checksumMismatch).inputs = s.inputs := rfl
@[simp] theorem State.abort_mismatch_tick (s : State) : (s.abort .checksumMismatch).tick = s.tick := rfl

@[simp] theorem State.resetRegisters_cfg (s : State) : s.resetRegisters.cfg = s.cfg := rfl
@[simp] theorem State.resetRegisters_unitPort (s : State) : s.resetRegisters.unitPort = s.unitPort := rfl
@[simp] theorem State.resetRegisters_phase (s : State) : s.resetRegisters.phase = .idle := rfl
@[simp] theorem State.resetRegisters_delayCnt (s : State) : s.resetRegisters.delayCnt = 0 := rfl
@[simp] theorem State.resetRegisters_ptCount (s : State) : s.resetRegisters.ptCount = 0 := rfl
@[simp] theorem State.resetRegisters_measIdx (s : State) : s.resetRegisters.measIdx = 0 := rfl
@[simp] theorem State.resetRegisters_frame (s : State) : s.resetRegisters.frame = #v[0, 0, 0, 0, 0] := rfl
@[simp] theorem State.resetRegisters_meas (s : State) : s.resetRegisters.meas = #v[0, 0, 0, 0] := rfl
@[simp] theorem State.resetRegisters_measValid (s : State) : s.resetRegisters.measValid = false := rfl
@[simp] theorem State.resetRegisters_result (s : State) : s.resetRegisters.result = .success := rfl
@[simp] theorem State.resetRegisters_unitBusy (s : State) : s.resetRegisters.unitBusy = false := rfl
@[simp] theorem State.resetRegisters_unitExp (s : State) : s.resetRegisters.unitExp = .low := rfl
@[simp] theorem State.resetRegisters_unitCount (s : State) : s.resetRegisters.unitCount = 0 := rfl
@[simp] theorem State.resetRegisters_inputs (s : State) : s.resetRegisters.inputs = s.inputs := rfl
@[simp] theorem State.resetRegisters_tick (s : State) : s.resetRegisters.tick = s.tick := rfl

@[simp] theorem State.storeDuration_cfg (s : State) (c : Nat) : (s.storeDuration c).cfg = s.cfg := rfl
@[simp] theorem State.storeDuration_unitPort (s : State) (c : Nat) : (s.storeDuration c).unitPort = s.unitPort := rfl
@[simp] theorem State.storeDuration_phase (s : State) (c : Nat) : (s.storeDuration c).phase = s.phase := rfl
@[simp] theorem State.storeDuration_delayCnt (s : State) (c : Nat) : (s.storeDuration c).delayCnt = s.delayCnt := rfl
@[simp] theorem State.storeDuration_ptCount (s : State) (c : Nat) : (s.storeDuration c).ptCount = s.ptCount := rfl
@[simp] theorem State.storeDuration_measIdx (s : State) (c : Nat) : (s.storeDuration c).measIdx = s.measIdx := rfl
@[simp] theorem State.storeDuration_dur (s : State) (c : Nat) : (s.storeDuration c).dur = s.dur.set s.measIdx c := rfl
@[simp] theorem State.storeDuration_frame (s : State) (c : Nat) : (s.storeDuration c).frame = s.frame := rfl
@[simp] theorem State.storeDuration_meas (s : State) (c : Nat) : (s.storeDuration c).meas = s.meas := rfl
@[simp] theorem State.storeDuration_measValid (s : State) (c : Nat) : (s.storeDuration c).measValid = s.measValid := rfl
@[simp] theorem State.storeDuration_result (s : State) (c : Nat) : (s.storeDuration c).result = s.result := rfl
@[simp] theorem State.storeDuration_unitBusy (s : State) (c : Nat) : (s.storeDuration c).unitBusy = s.unitBusy := rfl
@[simp] theorem State.storeDuration_unitExp (s : State) (c : Nat) : (s.storeDuration c).unitExp = s.unitExp := rfl
@[simp] theorem State.storeDuration_unitCount (s : State) (c : Nat) : (s.storeDuration c).unitCount = s.unitCount := rfl
@[simp] theorem State.storeDuration_inputs (s : State) (c : Nat) : (s.storeDuration c).inputs = s.inputs := rfl
@[simp] theorem State.storeDuration_tick (s : State) (c : Nat) : (s.storeDuration c).tick = s.tick := rfl

@[simp] theorem State.withUnit_cfg (s : State) (b : Bool) (l : Level) (c : Nat) : (s.withUnit b l c).cfg = s.cfg := rfl
@[simp] theorem State.withUnit_unitPort (s : State) (b : Bool) (l : Level) (c : Nat) : (s.withUnit b l c).unitPort = s.unitPort := rfl
@[simp] theorem State.withUnit_phase (s : State) (b : Bool) (l : Level) (c : Nat) : (s.withUnit b l c).phase = s.phase := rfl
@[simp] theorem State.withUnit_delayCnt (s : State) (b : Bool) (l : Level) (c : Nat) : (s.withUnit b l c).delayCnt = s.delayCnt := rfl
@[simp] theorem State.withUnit_ptCount (s : State) (b : Bool) (l : Level) (c : Nat) : (s.withUnit b l c).ptCount = s.ptCount := rfl
@[simp] theorem State.withUnit_measIdx (s : State) (b : Bool) (l : Level) (c : Nat) : (s.withUnit b l c).measIdx = s.measIdx := rfl
@[simp] theorem State.withUnit_dur (s : State) (b : Bool) (l : Level) (c : Nat) : (s.withUnit b l c).dur = s.dur := rfl
@[simp] theorem State.withUnit_frame (s : State) (b : Bool) (l : Level) (c : Nat) : (s.withUnit b l c).frame = s.frame := rfl
@[simp] theorem State.withUnit_meas (s : State) (b : Bool) (l : Level) (c : Nat) : (s.withUnit b l c).meas = s.meas := rfl
@[simp] theorem State.withUnit_measValid (s : State) (b : Bool) (l : Level) (c : Nat) : (s.withUnit b l c).measValid = s.measValid := rfl
@[simp] theorem State.withUnit_result (s : State) (b : Bool) (l : Level) (c : Nat) : (s.withUnit b l c).result = s.result := rfl
@[simp] theorem State.withUnit_unitBusy (s : State) (b : Bool) (l : Level) (c : Nat) : (s.withUnit b l c).unitBusy = b := rfl
@[simp] theorem State.withUnit_unitExp (s : State) (b : Bool) (l : Level) (c : Nat) : (s.withUnit b l c).unitExp = l := rfl
@[simp] theorem State.withUnit_unitCount (s : State) (b : Bool) (l : Level) (c : Nat) : (s.withUnit b l c).unitCount = c := rfl
@[simp] theorem State.withUnit_inputs (s : State) (b : Bool) (l : Level) (c : Nat) : (s.withUnit b l c).inputs = s.inputs := rfl
@[simp] theorem State.withUnit_tick (s : State) (b : Bool) (l : Level) (c : Nat) : (s.withUnit b l c).tick = s.tick := rfl

end Sys2Proof.Machine
end

