-- ==== Sys2Proof/Laws/Ops.lean ====
section
/-! SUPPORT. What the shared operations do, once each: the inputs of later ticks, `ptStep`, the unit's tick, serving
the command port, packing bytes, and the decoder on the words the block's own ports hold. -/

namespace Sys2Proof.Machine

/-! ### Inputs -/

theorem State.now_eq (s : State) : s.now = s.inputAt 0 := rfl

theorem State.pinSample_eq (s : State) : s.pinSample = s.now.pinIn := rfl

@[simp] theorem State.inputAt_advance (s : State) (j : Nat) : s.advance.inputAt j = s.inputAt (j + 1) := by
  simp [State.inputAt, Nat.add_assoc, Nat.add_comm 1 j]

theorem State.inputAt_congr {s t : State} (hi : s.inputs = t.inputs) (ht : s.tick = t.tick) (j : Nat) :
    s.inputAt j = t.inputAt j := by
  simp [State.inputAt, hi, ht]

@[simp] theorem State.inputAt_withUnit (s : State) (b : Bool) (l : Level) (c j : Nat) :
    (s.withUnit b l c).inputAt j = s.inputAt j := rfl

@[simp] theorem State.now_withUnit (s : State) (b : Bool) (l : Level) (c : Nat) :
    (s.withUnit b l c).now = s.now := rfl

@[simp] theorem State.pinSample_withUnit (s : State) (b : Bool) (l : Level) (c : Nat) :
    (s.withUnit b l c).pinSample = s.pinSample := rfl

theorem State.NoReset.now {s : State} {n : Nat} (h : s.NoReset n) (hn : 0 < n) : s.now.rst = false := h 0 hn

theorem State.NoReset.mono {s : State} {m n : Nat} (h : s.NoReset n) (hmn : m ≤ n) : s.NoReset m :=
  fun j hj => h j (Nat.lt_of_lt_of_le hj hmn)

/-- No reset at the listed ticks. -/
theorem State.noReset_of_all {s : State} {n : Nat} (h : s.inputs.all (fun x => !x.rst) = true)
    (hn : n ≤ s.inputs.length) : s.NoReset n := by
  intro j hj
  have hl : j < s.inputs.length := Nat.lt_of_lt_of_le hj hn
  have hx := List.all_eq_true.mp h _ (List.getElem_mem hl)
  unfold State.inputAt
  rw [List.getElem?_eq_getElem hl]
  simpa using hx

/-! ### pt_step -/

theorem ptStep_ne {ceiling c : Nat} {l x : Level} (h : x ≠ l) : ptStep ceiling l c x = .done c := by
  simp [ptStep, h]

theorem ptStep_timedOut {ceiling : Nat} {l : Level} : ptStep ceiling l ceiling l = .timedOut := by
  simp [ptStep]

theorem ptStep_continues {ceiling c : Nat} {l : Level} (h : c ≠ ceiling) :
    ptStep ceiling l c l = .continues (c + 1) := by
  simp [ptStep, h]

/-- Inversion of `ptStep`: its three outcomes and when each holds. -/
theorem ptStep_cases (ceiling c : Nat) (l x : Level) :
    (x ≠ l ∧ ptStep ceiling l c x = .done c) ∨
    (x = l ∧ c = ceiling ∧ ptStep ceiling l c x = .timedOut) ∨
    (x = l ∧ c ≠ ceiling ∧ ptStep ceiling l c x = .continues (c + 1)) := by
  by_cases h : x = l
  · by_cases hc : c = ceiling
    · exact .inr (.inl ⟨h, hc, by simp [ptStep, h, hc]⟩)
    · exact .inr (.inr ⟨h, hc, by simp [ptStep, h, hc]⟩)
  · exact .inl ⟨h, ptStep_ne h⟩

theorem Level.eq_low_or_high (l : Level) : l = .low ∨ l = .high := by cases l <;> simp

/-! ### The unit -/

@[simp] theorem State.unitAccept_eq (s : State) (cmd : Option Level) :
    s.unitAccept cmd = s.withUnit cmd.isSome (cmd.getD s.unitExp) (if cmd.isSome then 0 else s.unitCount) := by
  cases cmd <;> rfl

/-- A tick of the unit writes the unit's registers and nothing else. -/
theorem State.unitTick_eq (s : State) (cmd : Option Level) :
    s.unitTick cmd = s.withUnit (s.unitTick cmd).unitBusy (s.unitTick cmd).unitExp (s.unitTick cmd).unitCount := by
  unfold State.unitTick
  split
  · split <;> cases cmd <;> rfl
  · cases cmd <;> rfl

/-! ### The command port -/

/-- What `IDLE` and `DONE` do: accept the read at `start = 1`, else nothing. -/
theorem State.serveCommand_eq (s : State) : s.serveCommand = if s.now.start then s.acceptRead else s := by
  unfold State.serveCommand State.cmdWord
  cases s.now.start <;> rfl

/-! ### Words on the block's own ports -/

@[simp] theorem phaseOfCode_code (p : Phase) : phaseOfCode p.code = some p := by cases p <;> rfl

@[simp] theorem State.fetchPhase_eq (s : State) : s.fetchPhase = .ok (microOp s.phase) := by
  unfold State.fetchPhase
  cases s.phase <;> rfl

/-- The command at the unit's port at this tick, `none` for `pt_start = 0`. -/
def State.unitCommand (s : State) : Option Level :=
  match s.unitPort with
  | .engine => s.engineCommand
  | .bench => if s.now.ptStart then some s.now.ptLevel else none

/-- Whatever drives the unit's port, its word decodes, and the operation is a tick of the unit with that command. -/
theorem State.fetchUnit_exec (s : State) :
    ∃ u, s.fetchUnit = .ok u ∧ exec u s = .next (s.unitTick s.unitCommand) := by
  have h : ∀ cmd : Option Level, ∃ u, decode .ptcmd (ptWord cmd) = .ok u ∧ exec u s = .next (s.unitTick cmd) := by
    rintro (_ | _ | _)
    · exact ⟨.ptNop .low, rfl, rfl⟩
    · exact ⟨.measureLevel .low, rfl, rfl⟩
    · exact ⟨.measureLevel .high, rfl, rfl⟩
  unfold State.fetchUnit State.ptCommandWord State.unitCommand
  rcases s.unitPort with _ | _
  · exact h _
  · dsimp only
    cases s.now.ptStart
    · cases s.now.ptLevel
      · exact ⟨.ptNop .low, rfl, rfl⟩
      · exact ⟨.ptNop .high, rfl, rfl⟩
    · cases s.now.ptLevel
      · exact h (some .low)
      · exact h (some .high)

/-! ### Indices and bytes -/

theorem nextIndex_of_lt {i : Fin 80} (h : i.val < 79) : nextIndex i = some ⟨i.val + 1, by omega⟩ := by
  simp [nextIndex, show i.val + 1 < 80 by omega]

theorem nextIndex_of_last {i : Fin 80} (h : ¬ i.val < 79) : nextIndex i = none := by
  simp [nextIndex, show ¬ i.val + 1 < 80 by omega]

/-- The first of the eight bits is bit 7 of the byte. -/
theorem packByte_getLsbD (b : Fin 8 → Bool) (j : Fin 8) : (packByte b).getLsbD (7 - j.val) = b j := by
  fin_cases j <;> simp [packByte, BitVec.ofBoolListBE, BitVec.getElem_cons]

/-- The expected level of index `n`, by its parity. -/
theorem levelOfIndex_eq (n : Nat) : levelOfIndex n = if n % 2 = 0 then .low else .high := by
  unfold levelOfIndex Level.ofBit
  rcases Nat.mod_two_eq_zero_or_one n with h | h <;> simp [h]

/-- Byte `k` of a decoded frame. -/
theorem decodeFrame_getElem (dur : Vector Nat 80) (k : Fin 5) : (decodeFrame dur)[k] = frameByte dur k := by
  fin_cases k <;> rfl

/-- The bits of the frame as one number, from its most significant end, are the bits of its bytes in order. -/
theorem frameWord_getLsbD (f : Vector Byte 5) (i : Fin 40) :
    (frameWord f).getLsbD (39 - i.val) = (f[i.val / 8]'(by omega)).getLsbD (7 - i.val % 8) := by
  have h : (frameWord f).getLsbD (39 - i.val) =
      BitVec.getLsbD (w := 8 + 8 + 8 + 8 + 8) (f[0] ++ f[1] ++ f[2] ++ f[3] ++ f[4]) (39 - i.val) := rfl
  rw [h]
  simp only [BitVec.getLsbD_append]
  fin_cases i <;> rfl

/-- The checksum test as arithmetic on numbers. -/
theorem checksumOk_iff (f : Vector Byte 5) : checksumOk f = true ↔
    (f[0].toNat + f[1].toNat + f[2].toNat + f[3].toNat) % 256 = f[4].toNat := by
  unfold checksumOk checksum
  rw [beq_iff_eq, ← BitVec.toNat_inj, BitVec.toNat_ofNat]

end Sys2Proof.Machine
end

