-- ==== Sys2Proof/Laws/Measure.lean ====
section
/-! SUPPORT. What `leadingMatches` counts (40_pulse_timer.md R103), said once. -/

namespace Sys2Proof.Machine

theorem leadingMatches_le (l : Level) (f : Nat → Level) (k p : Nat) : leadingMatches l f k p ≤ k := by
  induction k generalizing p with
  | zero => exact Nat.le_refl 0
  | succ k ih =>
    unfold leadingMatches
    split
    · have := ih (p + 1)
      omega
    · omega

/-- What `leadingMatches` says of the samples: so many match, and if it stopped short of `k` the next one differs. -/
theorem leadingMatches_spec (l : Level) (f : Nat → Level) (k p : Nat) :
    (∀ i, i < leadingMatches l f k p → f (p + i) = l) ∧
    (leadingMatches l f k p < k → f (p + leadingMatches l f k p) ≠ l) := by
  induction k generalizing p with
  | zero => simp [leadingMatches]
  | succ k ih =>
    unfold leadingMatches
    split
    · rename_i h0
      obtain ⟨h1, h2⟩ := ih (p + 1)
      refine ⟨fun i hi => ?_, fun h => ?_⟩
      · cases i with
        | zero => simpa using h0
        | succ i =>
          rw [show p + (i + 1) = p + 1 + i by omega]
          exact h1 i (by omega)
      · rw [show p + (leadingMatches l f k (p + 1) + 1) = p + 1 + leadingMatches l f k (p + 1) by omega]
        exact h2 (by omega)
    · rename_i h0
      exact ⟨fun i hi => by omega, fun _ => by simpa using h0⟩

/-- `n` matching samples and then one that differs. -/
theorem leadingMatches_eq {l : Level} {f : Nat → Level} {k p n : Nat} (hm : ∀ i, i < n → f (p + i) = l)
    (hd : f (p + n) ≠ l) (hk : n < k) : leadingMatches l f k p = n := by
  induction k generalizing p n with
  | zero => omega
  | succ k ih =>
    unfold leadingMatches
    cases n with
    | zero => rw [if_neg (by simpa using hd)]
    | succ n =>
      have h0 := hm 0 (by omega)
      rw [if_pos (by simpa using h0), ih (n := n)]
      · intro i hi
        rw [Nat.add_assoc, Nat.add_comm 1 i]
        exact hm (i + 1) (by omega)
      · rwa [Nat.add_assoc, Nat.add_comm 1 n]
      · omega

/-- All the samples looked at match. -/
theorem leadingMatches_eq_all (l : Level) (f : Nat → Level) (k p : Nat) :
    leadingMatches l f k p = k ↔ ∀ i, i < k → f (p + i) = l := by
  induction k generalizing p with
  | zero => simp [leadingMatches]
  | succ k ih =>
    unfold leadingMatches
    constructor
    · intro h i hi
      split at h
      · rename_i h0
        cases i with
        | zero => simpa using h0
        | succ i =>
          rw [show p + (i + 1) = p + 1 + i by omega]
          exact (ih (p + 1)).mp (by omega) i (by omega)
      · omega
    · intro h
      rw [if_pos (by simpa using h 0 (by omega)), (ih (p + 1)).mpr]
      intro i hi
      rw [show p + 1 + i = p + (i + 1) by omega]
      exact h (i + 1) (by omega)

end Sys2Proof.Machine
end

