-- ==== Sys2Proof/Laws/PerInstr.lean ====
section
/-! SUPPORT. Facts about every operation as syntax, one lemma per constructor. -/

namespace Sys2Proof.Laws.RoundTrip

/-- The operation is well formed, its word fits its port, and decoding its word on that port gives it back. -/
def Statement (i : Sys2Proof.Instr) : Prop :=
  i.wellFormed = true ∧ (Sys2Proof.encode i).2 < 2 ^ (Sys2Proof.encode i).1.width ∧
    Sys2Proof.decode (Sys2Proof.encode i).1 (Sys2Proof.encode i).2 = .ok i

theorem read : Statement .read := ⟨rfl, by decide, rfl⟩
theorem nop : Statement .nop := ⟨rfl, by decide, rfl⟩
theorem measureLevel (level : Sys2Proof.Level) : Statement (.measureLevel level) := by
  cases level <;> exact ⟨rfl, by decide, rfl⟩
theorem ptNop (ignored : Sys2Proof.Level) : Statement (.ptNop ignored) := by
  cases ignored <;> exact ⟨rfl, by decide, rfl⟩
theorem idle : Statement .idle := ⟨rfl, by decide, rfl⟩
theorem reqLow : Statement .reqLow := ⟨rfl, by decide, rfl⟩
theorem reqHigh : Statement .reqHigh := ⟨rfl, by decide, rfl⟩
theorem ackLow : Statement .ackLow := ⟨rfl, by decide, rfl⟩
theorem ackHigh : Statement .ackHigh := ⟨rfl, by decide, rfl⟩
theorem frame : Statement .frame := ⟨rfl, by decide, rfl⟩
theorem decode : Statement .decode := ⟨rfl, by decide, rfl⟩
theorem verify : Statement .verify := ⟨rfl, by decide, rfl⟩
theorem done : Statement .done := ⟨rfl, by decide, rfl⟩
theorem resSuccess : Statement .resSuccess := ⟨rfl, by decide, rfl⟩
theorem resResponseReady : Statement .resResponseReady := ⟨rfl, by decide, rfl⟩
theorem resChecksumMismatch : Statement .resChecksumMismatch := ⟨rfl, by decide, rfl⟩
theorem resTimeout : Statement .resTimeout := ⟨rfl, by decide, rfl⟩

end Sys2Proof.Laws.RoundTrip
end

