-- ==== Sys2Proof/Laws/Step.lean ====
section
/-! SUPPORT. What a tick can do, said once: every operation answers a next state, a phase micro-operation does not look
at the unit, and `step` is the two together. Provers cite these instead of unfolding `step`. -/

namespace Sys2Proof.Machine

/-- The state a phase micro-operation answers. -/
def phaseNext (p : Phase) (s : State) : State :=
  match exec (microOp p) s with
  | .next t => t
  | .fault _ | .refused _ => s

/-- Every phase micro-operation answers a next state. -/
theorem exec_microOp (p : Phase) (s : State) : exec (microOp p) s = .next (phaseNext p s) := by
  have h : ∀ o : Host.Outcome State Fault Refusal, (∃ t, o = .next t) →
      o = .next (match o with | .next t => t | .fault _ | .refused _ => s) := by
    rintro _ ⟨t, rfl⟩
    rfl
  refine h _ ?_
  cases p <;> simp only [microOp, exec]
  · exact ⟨_, rfl⟩
  · unfold execReqLow; split <;> exact ⟨_, rfl⟩
  · unfold execReqHigh; split <;> exact ⟨_, rfl⟩
  · unfold execAckLow; split <;> exact ⟨_, rfl⟩
  · unfold execAckHigh; split <;> exact ⟨_, rfl⟩
  · unfold execFrame; split <;> first | exact ⟨_, rfl⟩ | (split <;> exact ⟨_, rfl⟩)
  · exact ⟨_, rfl⟩
  · unfold execVerify; split <;> exact ⟨_, rfl⟩
  · exact ⟨_, rfl⟩

theorem phaseNext_of_exec {p : Phase} {s t : State} (h : exec (microOp p) s = .next t) : phaseNext p s = t := by
  rw [exec_microOp] at h
  exact Host.Outcome.next.inj h

/-! One equation per phase, with the outcome of `ptStep` read off the level and the count. -/

theorem phaseNext_idle (s : State) : phaseNext .idle s = if s.now.start then s.acceptRead else s :=
  s.serveCommand_eq

theorem phaseNext_done (s : State) : phaseNext .done s = if s.now.start then s.acceptRead else s :=
  s.serveCommand_eq

theorem phaseNext_reqLow (s : State) : phaseNext .reqLow s =
    if s.delayCnt = s.cfg.reqLowTicks - 1 then { s with phase := .reqHigh, delayCnt := 0 }
    else { s with delayCnt := s.delayCnt + 1 } := by
  apply phaseNext_of_exec
  simp only [microOp, exec, execReqLow]
  split <;> rfl

theorem phaseNext_reqHigh (s : State) : phaseNext .reqHigh s =
    if s.delayCnt = s.cfg.reqHighTicks - 1 then { s with phase := .ackLow, delayCnt := 0, ptCount := 0 }
    else { s with delayCnt := s.delayCnt + 1 } := by
  apply phaseNext_of_exec
  simp only [microOp, exec, execReqHigh]
  split <;> rfl

theorem phaseNext_ackLow (s : State) : phaseNext .ackLow s =
    if s.pinSample ≠ .low then { s with ptCount := 0, phase := .ackHigh }
    else if s.ptCount = s.cfg.ceiling then s.abort .timeout
    else { s with ptCount := s.ptCount + 1 } := by
  apply phaseNext_of_exec
  simp only [microOp, exec, execAckLow, ptStep]
  split <;> split at * <;> simp_all <;> split at * <;> simp_all

theorem phaseNext_ackHigh (s : State) : phaseNext .ackHigh s =
    if s.pinSample ≠ .high then s.responseReady
    else if s.ptCount = s.cfg.ceiling then s.abort .timeout
    else { s with ptCount := s.ptCount + 1 } := by
  apply phaseNext_of_exec
  simp only [microOp, exec, execAckHigh, ptStep]
  split <;> split at * <;> simp_all <;> split at * <;> simp_all

theorem phaseNext_frame (s : State) : phaseNext .frame s =
    if s.pinSample ≠ levelOfIndex s.measIdx then
      match nextIndex s.measIdx with
      | none => { s.storeDuration s.ptCount with ptCount := 0, phase := .decode }
      | some i => { s.storeDuration s.ptCount with ptCount := 0, measIdx := i }
    else if s.ptCount = s.cfg.ceiling then s.abort .timeout
    else { s with ptCount := s.ptCount + 1 } := by
  apply phaseNext_of_exec
  simp only [microOp, exec, execFrame]
  obtain ⟨h, e⟩ | ⟨h, hc, e⟩ | ⟨h, hc, e⟩ := ptStep_cases s.cfg.ceiling s.ptCount (levelOfIndex s.measIdx) s.pinSample
  · simp only [e, h, ne_eq, not_false_iff, if_true]
    cases nextIndex s.measIdx <;> rfl
  · rw [e, if_neg (not_not.mpr h), if_pos hc]
  · rw [e, if_neg (not_not.mpr h), if_neg hc]

theorem phaseNext_decode (s : State) :
    phaseNext .decode s = { s with frame := decodeFrame s.dur, phase := .verify } := rfl

theorem phaseNext_verify (s : State) : phaseNext .verify s =
    if checksumOk s.frame then s.publish else s.abort .checksumMismatch := by
  apply phaseNext_of_exec
  simp only [microOp, exec, execVerify]
  split <;> rfl

/-- Inversion of the block's part of a tick: everything the micro-operation of the current phase can do, each case
with its guards. A proof about a tick splits on this and never on the tests inside the meanings. -/
theorem phaseNext_cases (s : State) :
    ((s.phase = .idle ∨ s.phase = .done) ∧ s.now.start = true ∧ phaseNext s.phase s = s.acceptRead) ∨
    ((s.phase = .idle ∨ s.phase = .done) ∧ s.now.start = false ∧ phaseNext s.phase s = s) ∨
    (s.phase = .reqLow ∧ s.delayCnt = s.cfg.reqLowTicks - 1 ∧
      phaseNext s.phase s = { s with phase := .reqHigh, delayCnt := 0 }) ∨
    (s.phase = .reqLow ∧ s.delayCnt ≠ s.cfg.reqLowTicks - 1 ∧
      phaseNext s.phase s = { s with delayCnt := s.delayCnt + 1 }) ∨
    (s.phase = .reqHigh ∧ s.delayCnt = s.cfg.reqHighTicks - 1 ∧
      phaseNext s.phase s = { s with phase := .ackLow, delayCnt := 0, ptCount := 0 }) ∨
    (s.phase = .reqHigh ∧ s.delayCnt ≠ s.cfg.reqHighTicks - 1 ∧
      phaseNext s.phase s = { s with delayCnt := s.delayCnt + 1 }) ∨
    (s.phase = .ackLow ∧ s.now.pinIn ≠ .low ∧ phaseNext s.phase s = { s with ptCount := 0, phase := .ackHigh }) ∨
    (s.phase = .ackHigh ∧ s.now.pinIn ≠ .high ∧ phaseNext s.phase s = s.responseReady) ∨
    (∃ h : s.measIdx.val < 79, s.phase = .frame ∧ s.now.pinIn ≠ levelOfIndex s.measIdx ∧
      phaseNext s.phase s =
        { s.storeDuration s.ptCount with ptCount := 0, measIdx := ⟨s.measIdx.val + 1, by omega⟩ }) ∨
    (s.phase = .frame ∧ s.measIdx.val = 79 ∧ s.now.pinIn ≠ levelOfIndex s.measIdx ∧
      phaseNext s.phase s = { s.storeDuration s.ptCount with ptCount := 0, phase := .decode }) ∨
    (measuring s.phase = true ∧ s.now.pinIn = s.expectedLevel ∧ s.ptCount = s.cfg.ceiling ∧
      phaseNext s.phase s = s.abort .timeout) ∨
    (measuring s.phase = true ∧ s.now.pinIn = s.expectedLevel ∧ s.ptCount ≠ s.cfg.ceiling ∧
      phaseNext s.phase s = { s with ptCount := s.ptCount + 1 }) ∨
    (s.phase = .decode ∧ phaseNext s.phase s = { s with frame := decodeFrame s.dur, phase := .verify }) ∨
    (s.phase = .verify ∧ checksumOk s.frame = true ∧ phaseNext s.phase s = s.publish) ∨
    (s.phase = .verify ∧ checksumOk s.frame = false ∧ phaseNext s.phase s = s.abort .checksumMismatch) := by
  have e := s.pinSample_eq
  have he : s.expectedLevel = match s.phase with
    | .ackLow => .low
    | .ackHigh => .high
    | .frame => levelOfIndex s.measIdx
    | .idle | .reqLow | .reqHigh | .decode | .verify | .done => .low := rfl
  cases hp : s.phase <;> rw [hp] at he
  · rw [phaseNext_idle]; cases s.now.start <;> simp
  · rw [phaseNext_reqLow]; by_cases h : s.delayCnt = s.cfg.reqLowTicks - 1
    · rw [if_pos h]; simp [h]
    · rw [if_neg h]; simp [h, hp]
  · rw [phaseNext_reqHigh]; by_cases h : s.delayCnt = s.cfg.reqHighTicks - 1
    · rw [if_pos h]; simp [h]
    · rw [if_neg h]; simp [h, hp]
  · rw [phaseNext_ackLow, e, he]; by_cases h : s.now.pinIn = .low
    · by_cases hc : s.ptCount = s.cfg.ceiling
      · rw [if_neg (not_not.mpr h), if_pos hc]; simp [measuring, h, hc]
      · rw [if_neg (not_not.mpr h), if_neg hc]; simp [measuring, h, hc, hp]
    · rw [if_pos h]; simp [h]
  · rw [phaseNext_ackHigh, e, he]; by_cases h : s.now.pinIn = .high
    · by_cases hc : s.ptCount = s.cfg.ceiling
      · rw [if_neg (not_not.mpr h), if_pos hc]; simp [measuring, h, hc]
      · rw [if_neg (not_not.mpr h), if_neg hc]; simp [measuring, h, hc, hp]
    · rw [if_pos h]; simp [h]
  · rw [phaseNext_frame, e, he]; by_cases h : s.now.pinIn = levelOfIndex s.measIdx
    · by_cases hc : s.ptCount = s.cfg.ceiling
      · rw [if_neg (not_not.mpr h), if_pos hc]; simp [measuring, h, hc]
      · rw [if_neg (not_not.mpr h), if_neg hc]; simp [measuring, h, hc, hp]
    · rw [if_pos h]; by_cases h79 : s.measIdx.val < 79
      · simp [nextIndex_of_lt h79, h, h79, hp]
      · rw [nextIndex_of_last h79]
        iterate 9 right
        exact .inl ⟨rfl, by omega, h, rfl⟩
  · rw [phaseNext_decode]; simp
  · rw [phaseNext_verify]; cases h : checksumOk s.frame <;> simp
  · rw [phaseNext_done]; cases s.now.start <;> simp

/-- A phase micro-operation neither reads nor writes the unit. -/
theorem phaseNext_withUnit (p : Phase) (s : State) (b : Bool) (l : Level) (c : Nat) :
    phaseNext p (s.withUnit b l c) = (phaseNext p s).withUnit b l c := by
  cases p
  · rw [phaseNext_idle, phaseNext_idle, State.now_withUnit]; split <;> rfl
  · simp only [phaseNext_reqLow, State.withUnit_delayCnt, State.withUnit_cfg]
    by_cases h : s.delayCnt = s.cfg.reqLowTicks - 1 <;> simp only [h, if_true, if_false] <;> rfl
  · simp only [phaseNext_reqHigh, State.withUnit_delayCnt, State.withUnit_cfg]
    by_cases h : s.delayCnt = s.cfg.reqHighTicks - 1 <;> simp only [h, if_true, if_false] <;> rfl
  · simp only [phaseNext_ackLow, State.pinSample_withUnit, State.withUnit_ptCount, State.withUnit_cfg]
    by_cases h : s.pinSample = .low <;> by_cases hc : s.ptCount = s.cfg.ceiling <;>
      simp only [h, hc, ne_eq, not_true_eq_false, not_false_iff, if_true, if_false] <;> rfl
  · simp only [phaseNext_ackHigh, State.pinSample_withUnit, State.withUnit_ptCount, State.withUnit_cfg]
    by_cases h : s.pinSample = .high <;> by_cases hc : s.ptCount = s.cfg.ceiling <;>
      simp only [h, hc, ne_eq, not_true_eq_false, not_false_iff, if_true, if_false] <;> rfl
  · simp only [phaseNext_frame, State.pinSample_withUnit, State.withUnit_ptCount, State.withUnit_cfg,
      State.withUnit_measIdx]
    by_cases h : s.pinSample = levelOfIndex s.measIdx <;> by_cases hc : s.ptCount = s.cfg.ceiling <;>
      simp only [h, hc, ne_eq, not_true_eq_false, not_false_iff, if_true, if_false] <;>
      first | rfl | (cases nextIndex s.measIdx <;> rfl)
  · rfl
  · rw [phaseNext_verify, phaseNext_verify, State.withUnit_frame]; split <;> rfl
  · rw [phaseNext_done, phaseNext_done, State.now_withUnit]; split <;> rfl

/-- What a phase micro-operation leaves alone, whatever the phase. -/
theorem phaseNext_frame_fields (p : Phase) (s : State) :
    (phaseNext p s).cfg = s.cfg ∧ (phaseNext p s).unitPort = s.unitPort ∧ (phaseNext p s).inputs = s.inputs ∧
    (phaseNext p s).tick = s.tick ∧ (phaseNext p s).unitBusy = s.unitBusy ∧
    (phaseNext p s).unitExp = s.unitExp ∧ (phaseNext p s).unitCount = s.unitCount := by
  cases p
  · rw [phaseNext_idle]; split <;> simp
  · rw [phaseNext_reqLow]; split <;> simp
  · rw [phaseNext_reqHigh]; split <;> simp
  · rw [phaseNext_ackLow]; split <;> [simp; (split <;> simp)]
  · rw [phaseNext_ackHigh]; split <;> [simp; (split <;> simp)]
  · rw [phaseNext_frame]; split <;> [(split <;> simp); (split <;> simp)]
  · rw [phaseNext_decode]; simp
  · rw [phaseNext_verify]; split <;> simp
  · rw [phaseNext_done]; split <;> simp

@[simp] theorem phaseNext_cfg (p : Phase) (s : State) : (phaseNext p s).cfg = s.cfg := (phaseNext_frame_fields p s).1
@[simp] theorem phaseNext_unitPort (p : Phase) (s : State) : (phaseNext p s).unitPort = s.unitPort :=
  (phaseNext_frame_fields p s).2.1
@[simp] theorem phaseNext_inputs (p : Phase) (s : State) : (phaseNext p s).inputs = s.inputs :=
  (phaseNext_frame_fields p s).2.2.1
@[simp] theorem phaseNext_tick (p : Phase) (s : State) : (phaseNext p s).tick = s.tick :=
  (phaseNext_frame_fields p s).2.2.2.1

/-! ### The tick -/

/-- The state after a tick. -/
def tickNext (s : State) : State :=
  if s.now.rst then s.resetRegisters.advance
  else ((phaseNext s.phase s).withUnit (s.unitTick s.unitCommand).unitBusy (s.unitTick s.unitCommand).unitExp
    (s.unitTick s.unitCommand).unitCount).advance

/-- What a tick does, whatever the state: reset; or the phase's micro-operation on the block and the command at the
unit's port on the unit, both on the state before the tick. -/
theorem step_eq (s : State) : step s = .next (tickNext s) := by
  unfold step tickNext
  split
  · rfl
  · obtain ⟨u, hu, he⟩ := s.fetchUnit_exec
    simp only [hu, State.fetchPhase_eq, he]
    rw [s.unitTick_eq s.unitCommand, exec_microOp, phaseNext_withUnit]
    rfl

theorem tickNext_of_step {s t : State} (h : step s = .next t) : t = tickNext s := by
  rw [step_eq] at h
  exact (Host.Outcome.next.inj h).symm

theorem tickNext_rst {s : State} (h : s.now.rst = true) : tickNext s = s.resetRegisters.advance := by
  simp [tickNext, h]

theorem tickNext_run {s : State} (h : s.now.rst = false) : tickNext s =
    ((phaseNext s.phase s).withUnit (s.unitTick s.unitCommand).unitBusy (s.unitTick s.unitCommand).unitExp
      (s.unitTick s.unitCommand).unitCount).advance := by
  simp [tickNext, h]

@[simp] theorem tickNext_cfg (s : State) : (tickNext s).cfg = s.cfg := by
  unfold tickNext; split <;> simp
@[simp] theorem tickNext_unitPort (s : State) : (tickNext s).unitPort = s.unitPort := by
  unfold tickNext; split <;> simp
@[simp] theorem tickNext_inputs (s : State) : (tickNext s).inputs = s.inputs.tail := by
  unfold tickNext; split <;> simp
@[simp] theorem tickNext_tick (s : State) : (tickNext s).tick = s.tick + 1 := by
  unfold tickNext; split <;> simp

@[simp] theorem tickNext_inputAt (s : State) (j : Nat) : (tickNext s).inputAt j = s.inputAt (j + 1) := by
  rw [← State.inputAt_advance]
  exact State.inputAt_congr (by simp) (by simp) j

@[simp] theorem tickNext_now (s : State) : (tickNext s).now = s.inputAt 1 := tickNext_inputAt s 0

/-! ### States that agree on the block -/

theorem State.SameBlock.refl (s : State) : s.SameBlock s := ⟨rfl, rfl, rfl, rfl, rfl, rfl, rfl, rfl, rfl, rfl⟩

theorem State.SameBlock.symm {a b : State} (h : a.SameBlock b) : b.SameBlock a := by
  obtain ⟨h1, h2, h3, h4, h5, h6, h7, h8, h9, h10⟩ := h
  exact ⟨h1.symm, h2.symm, h3.symm, h4.symm, h5.symm, h6.symm, h7.symm, h8.symm, h9.symm, h10.symm⟩

theorem State.SameBlock.trans {a b c : State} (h : a.SameBlock b) (g : b.SameBlock c) : a.SameBlock c := by
  obtain ⟨h1, h2, h3, h4, h5, h6, h7, h8, h9, h10⟩ := h
  obtain ⟨g1, g2, g3, g4, g5, g6, g7, g8, g9, g10⟩ := g
  exact ⟨h1.trans g1, h2.trans g2, h3.trans g3, h4.trans g4, h5.trans g5, h6.trans g6, h7.trans g7, h8.trans g8,
    h9.trans g9, h10.trans g10⟩

/-- A state that agrees on the block differs at most in the unit, the inputs and the tick. -/
theorem State.SameBlock.eq_update {s t : State} (h : s.SameBlock t) : ∃ port b l c inputs tick,
    t = { s with unitPort := port, unitBusy := b, unitExp := l, unitCount := c, inputs := inputs, tick := tick } := by
  cases s; cases t
  obtain ⟨h1, h2, h3, h4, h5, h6, h7, h8, h9, h10⟩ := h
  dsimp only at *
  subst h1 h2 h3 h4 h5 h6 h7 h8 h9 h10
  exact ⟨_, _, _, _, _, _, rfl⟩

/-- The invariants are about the block alone. -/
theorem State.Inv.congr {s t : State} (h : s.SameBlock t) (hi : s.Inv) : t.Inv := by
  obtain ⟨_, _, _, _, _, _, rfl⟩ := h.eq_update
  exact ⟨hi.1, hi.2, hi.3, hi.4, hi.5, hi.6, hi.7⟩

/-- Without reset, a tick leaves the block as its phase's micro-operation does. -/
theorem tickNext_sameBlock {s : State} (h : s.now.rst = false) : (tickNext s).SameBlock (phaseNext s.phase s) := by
  rw [tickNext_run h]
  exact ⟨rfl, rfl, rfl, rfl, rfl, rfl, rfl, rfl, rfl, rfl⟩

end Sys2Proof.Machine
end

