-- ==== Sys2Proof/Laws/Run.lean ====
section
/-! SUPPORT. Runs of several ticks: since a tick always leads on, the state `k` ticks later is a function of the state. -/

namespace Sys2Proof.Machine

/-- The state `k` ticks later. -/
def ticks : Nat → State → State
  | 0, s => s
  | k + 1, s => ticks k (tickNext s)

@[simp] theorem ticks_zero (s : State) : ticks 0 s = s := rfl
theorem ticks_succ (k : Nat) (s : State) : ticks (k + 1) s = ticks k (tickNext s) := rfl

theorem ticks_add (j k : Nat) (s : State) : ticks (j + k) s = ticks k (ticks j s) := by
  induction j generalizing s with
  | zero => simp
  | succ j ih => rw [Nat.succ_add, ticks_succ, ih, ticks_succ]

theorem ticks_succ' (k : Nat) (s : State) : ticks (k + 1) s = tickNext (ticks k s) := by
  rw [ticks_add]
  rfl

/-- A run is `ticks`. -/
theorem core_run (k : Nat) (s : State) : Sys2Proof.core.run k s = .next (ticks k s) := by
  induction k generalizing s with
  | zero => rfl
  | succ k ih =>
    refine (Host.Core.run.eq_2 Sys2Proof.core s k).trans ?_
    have h : Sys2Proof.core.step s = .next (tickNext s) := step_eq s
    rw [h]
    exact ih _

theorem after_iff {k : Nat} {s t : State} : State.After k s t ↔ t = ticks k s := by
  unfold State.After
  rw [core_run]
  exact ⟨fun h => (Host.Outcome.next.inj h).symm, fun h => by rw [h]⟩

@[simp] theorem ticks_cfg (k : Nat) (s : State) : (ticks k s).cfg = s.cfg := by
  induction k generalizing s with
  | zero => rfl
  | succ k ih => rw [ticks_succ, ih, tickNext_cfg]

@[simp] theorem ticks_unitPort (k : Nat) (s : State) : (ticks k s).unitPort = s.unitPort := by
  induction k generalizing s with
  | zero => rfl
  | succ k ih => rw [ticks_succ, ih, tickNext_unitPort]

@[simp] theorem ticks_inputAt (k : Nat) (s : State) (j : Nat) : (ticks k s).inputAt j = s.inputAt (j + k) := by
  induction k generalizing s with
  | zero => rfl
  | succ k ih => rw [ticks_succ, ih, tickNext_inputAt, Nat.add_assoc]

@[simp] theorem ticks_now (k : Nat) (s : State) : (ticks k s).now = s.inputAt k := by
  rw [State.now_eq, ticks_inputAt, Nat.zero_add]

theorem noReset_ticks {k n : Nat} {s : State} (h : s.NoReset (k + n)) : (ticks k s).NoReset n := by
  intro j hj
  rw [ticks_inputAt]
  exact h _ (by omega)

/-- The induction on ticks, once: what holds now and is kept by every tick holds at every later tick. -/
theorem ticks_invariant {P : State → Prop} (hP : ∀ s, P s → P (tickNext s)) {s : State} (h : P s) (k : Nat) :
    P (ticks k s) := by
  induction k generalizing s with
  | zero => exact h
  | succ k ih => exact ih (hP s h)

end Sys2Proof.Machine
end

