-- ==== Sys2Proof/Laws/Wired.lean ====
section
/-! SUPPORT. What a tick of the wired form leaves alone, said once: the engine's part writes only the engine's registers,
and the tick spends one record of inputs. -/

namespace Sys2Proof.Machine

/-- The engine of the wired form has no counter, and leaves the configuration, the inputs and the unit alone. -/
theorem State.engineTick_frame_fields (s : State) (out : Option PulseDuration) :
    (s.engineTick out).cfg = s.cfg ∧ (s.engineTick out).unitPort = s.unitPort ∧
    (s.engineTick out).ptCount = s.ptCount ∧ (s.engineTick out).unitBusy = s.unitBusy ∧
    (s.engineTick out).unitExp = s.unitExp ∧ (s.engineTick out).unitCount = s.unitCount ∧
    (s.engineTick out).inputs = s.inputs ∧ (s.engineTick out).tick = s.tick := by
  unfold State.engineTick
  split
  · rw [s.serveCommand_eq]; split <;> simp
  · split <;> simp
  · split <;> simp
  · split <;> simp
  · split <;> simp
  · split
    · simp
    · split <;> simp
    · simp
  · simp
  · split <;> simp
  · rw [s.serveCommand_eq]; split <;> simp

@[simp] theorem wiredStep_cfg (s : State) : (wiredStep s).cfg = s.cfg := by
  unfold wiredStep; split <;> simp [s.engineTick_frame_fields]
@[simp] theorem wiredStep_unitPort (s : State) : (wiredStep s).unitPort = s.unitPort := by
  unfold wiredStep; split <;> simp [s.engineTick_frame_fields]
@[simp] theorem wiredStep_inputs (s : State) : (wiredStep s).inputs = s.inputs.tail := by
  unfold wiredStep; split <;> simp [s.engineTick_frame_fields]
@[simp] theorem wiredStep_tick (s : State) : (wiredStep s).tick = s.tick + 1 := by
  unfold wiredStep; split <;> simp [s.engineTick_frame_fields]

theorem wiredRun_succ (k : Nat) (s : State) : wiredRun (k + 1) s = wiredRun k (wiredStep s) := rfl

theorem wiredStep_rst {s : State} (h : s.now.rst = true) : wiredStep s = s.resetRegisters.advance := by
  simp [wiredStep, h]

end Sys2Proof.Machine
end

