-- ==== Sys2Proof/Tests/Slice0.lean ====
section
/-! SUPPORT. The model's own tests: what the well-formedness checks refuse, words of the table, one-step tests whose
expected results are worked examples and vectors of spec/ (named in each comment), and for every obligation with
hypotheses a state and operands that meet them. -/

open Sys2Proof Sys2Proof.Machine

namespace Sys2Proof.Tests

/-! ### Well-formedness -/

/-- The test fixture of 95_test_vectors.md V32, with the widths it needs. -/
def tiny : Config := { tTickUs := 10, ceiling := 3, reqLowTicks := 2, reqHighTicks := 1, dw := 3, dlw := 1 }

theorem test_wf_default : Config.default.WellFormed := by decide
theorem test_wf_tiny_is_only_a_fixture : tiny.Runnable ∧ ¬ tiny.WellFormed := by decide
theorem test_wf_refuses_low_ceiling : ¬ { Config.default with ceiling := 99, tTickUs := 11 }.WellFormed := by decide
theorem test_wf_refuses_short_budget : ¬ { Config.default with tTickUs := 9, reqLowTicks := 2047 }.WellFormed := by
  decide
theorem test_wf_refuses_short_low : ¬ { Config.default with reqLowTicks := 1799 }.WellFormed := by decide
theorem test_wf_refuses_short_high : ¬ { Config.default with reqHighTicks := 3 }.WellFormed := by decide
theorem test_wf_refuses_zero_low : ¬ { tiny with reqLowTicks := 0 }.Runnable := by decide
theorem test_wf_refuses_zero_high : ¬ { tiny with reqHighTicks := 0 }.Runnable := by decide
theorem test_wf_refuses_zero_ceiling : ¬ { tiny with ceiling := 0 }.Runnable := by decide
theorem test_wf_refuses_narrow_counter : ¬ { Config.default with dw := 6 }.WellFormed := by decide
theorem test_wf_refuses_narrow_delay : ¬ { Config.default with dlw := 10 }.WellFormed := by decide
theorem test_wf_refuses_large_count : (PulseDuration.count 101).wellFormed 100 = false := by decide
theorem test_wf_refuses_duration_bits :
    durBitsWellFormed 100 false 101 = false ∧ durBitsWellFormed 100 true 100 = false := by decide

/-! ### Decoding: words from the `encoding` column of the table -/

theorem test_decode_cmd : decode .cmd 0b1 = .ok .read ∧ decode .cmd 0b0 = .ok .nop := ⟨rfl, rfl⟩
theorem test_decode_ptcmd : decode .ptcmd 0b10 = .ok (.measureLevel .low) ∧
    decode .ptcmd 0b11 = .ok (.measureLevel .high) ∧ decode .ptcmd 0b00 = .ok (.ptNop .low) ∧
    decode .ptcmd 0b01 = .ok (.ptNop .high) := ⟨rfl, rfl, rfl, rfl⟩
theorem test_decode_phase : decode .phase 0b0000 = .ok .idle ∧ decode .phase 0b0001 = .ok .reqLow ∧
    decode .phase 0b0010 = .ok .reqHigh ∧ decode .phase 0b0011 = .ok .ackLow ∧ decode .phase 0b0100 = .ok .ackHigh ∧
    decode .phase 0b0101 = .ok .frame ∧ decode .phase 0b0110 = .ok .decode ∧ decode .phase 0b0111 = .ok .verify ∧
    decode .phase 0b1000 = .ok .done := ⟨rfl, rfl, rfl, rfl, rfl, rfl, rfl, rfl, rfl⟩
theorem test_decode_res : decode .res 0b00 = .ok .resSuccess ∧ decode .res 0b01 = .ok .resResponseReady ∧
    decode .res 0b10 = .ok .resChecksumMismatch ∧ decode .res 0b11 = .ok .resTimeout := ⟨rfl, rfl, rfl, rfl⟩
theorem test_decode_reserved : decode .phase 9 = .error (.reservedPhase 9) ∧
    decode .phase 15 = .error (.reservedPhase 15) ∧ decode .phase 16 = .error (.wordTooWide .phase 16) ∧
    decode .cmd 2 = .error (.wordTooWide .cmd 2) := ⟨rfl, rfl, rfl, rfl⟩
theorem test_decode_table_word : decodeTableWord 4 8 = some .done ∧ decodeTableWord 8 8 = some .done ∧
    decodeTableWord 1 1 = some .read ∧ decodeTableWord 2 2 = some (.measureLevel .low) ∧
    decodeTableWord 8 9 = none := ⟨rfl, rfl, rfl, rfl, rfl⟩

/-- 30_encoding.md R73: the four codes on the result port. -/
theorem test_result_codes : ({ State.reset with result := .success } : State).outputs.result = 0 ∧
    ({ State.reset with result := .responseReady } : State).outputs.result = 1 ∧
    ({ State.reset with result := .checksumMismatch } : State).outputs.result = 2 ∧
    ({ State.reset with result := .timeout } : State).outputs.result = 3 := ⟨rfl, rfl, rfl, rfl⟩

/-! ### One step -/

/-- The inputs of a tick without reset. -/
def tick (start : Bool) (pin : Level) : Inputs := { Inputs.quiet with start := start, pinIn := pin }

/-- The inputs of a tick without reset, with the outside driver's command port. -/
def benchTick (ptStart : Bool) (ptLevel pin : Level) : Inputs :=
  { Inputs.quiet with pinIn := pin, ptStart := ptStart, ptLevel := ptLevel }

/-- The inputs of a tick with reset. -/
def resetTick : Inputs := { Inputs.quiet with rst := true, start := true }

/-- A state of the fixture in a phase, about to sample the inputs. -/
def inPhase (ph : Phase) (xs : List Inputs) : State := { State.reset with cfg := tiny, phase := ph, inputs := xs }

/-- A state of the default configuration whose unit is busy. -/
def unitBusyAt (l : Level) (c : Nat) (xs : List Inputs) : State :=
  { State.reset with unitPort := .bench, unitBusy := true, unitExp := l, unitCount := c, inputs := xs }

/-- 30_encoding.md R71, R80: accepted in IDLE, ignored in FRAME. -/
theorem test_read : (∃ t, exec .read (inPhase .idle [tick true .high]) = .next t ∧ t.phase = .reqLow) ∧
    exec .read (inPhase .frame [tick true .low]) = .next (inPhase .frame [tick true .low]) := ⟨⟨_, rfl, rfl⟩, rfl⟩
/-- 30_encoding.md R84: no state change. -/
theorem test_nop : exec .nop (inPhase .done [tick false .high]) = .next (inPhase .done [tick false .high]) := rfl

/-- 40_pulse_timer.md R104, its example: busy expecting LOW with count 0. -/
theorem test_measureLevel_idle_unit : ∃ t, exec (.measureLevel .low) (inPhase .idle [tick false .high]) = .next t ∧
    t.unitBusy = true ∧ t.unitExp = .low ∧ t.unitCount = 0 := ⟨_, rfl, rfl, rfl, rfl⟩
/-- 40_pulse_timer.md R106: a command at the tick a Timeout completes is taken, and the counter cleared. -/
theorem test_measureLevel_chained : ∃ t, exec (.measureLevel .low) (unitBusyAt .high 100 [tick false .high]) = .next t ∧
    t.unitBusy = true ∧ t.unitExp = .low ∧ t.unitCount = 0 := ⟨_, rfl, rfl, rfl, rfl⟩
/-- 40_pulse_timer.md R105, its example: busy expecting HIGH, `pt_count = 100`, `pin_in = 1`. -/
theorem test_ptNop_timeout : let s := unitBusyAt .high 100 [tick false .high]
    s.ptDone = true ∧ s.ptTimeout = true ∧ s.ptDur = 101 ∧
    ∃ t, exec (.ptNop .low) s = .next t ∧ t.unitBusy = false ∧ t.unitCount = 101 := ⟨rfl, rfl, rfl, _, rfl, rfl, rfl⟩
/-- 95_test_vectors.md V14, `HIGH 99 HIGH`: Continue(100). -/
theorem test_ptNop_continues : ∃ t, exec (.ptNop .high) (unitBusyAt .high 99 [tick false .high]) = .next t ∧
    t.unitBusy = true ∧ t.unitCount = 100 := ⟨_, rfl, rfl, rfl⟩
/-- 95_test_vectors.md V14, the other rows. -/
theorem test_ptStep : ptStep 100 .low 0 .low = .continues 1 ∧ ptStep 100 .low 0 .high = .done 0 ∧
    ptStep 100 .high 100 .high = .timedOut ∧ ptStep 100 .high 100 .low = .done 100 ∧
    ptStep 100 .low 100 .low = .timedOut ∧ ptStep 100 .low 37 .high = .done 37 := by decide
/-- 95_test_vectors.md V10, V11, V12, V13. -/
theorem test_measureFn : measureFn 3 .high (levelAt .low [(.high, 3)]) 0 = (.count 3, 4) ∧
    measureFn 3 .high (levelAt .low [(.high, 4)]) 0 = (.timeout, 4) ∧
    measureFn 3 .low (levelAt .high []) 0 = (.count 0, 1) ∧
    measureFn 3 .low (levelAt .high [(.low, 2)]) 0 = (.count 2, 3) := by decide

/-- 95_test_vectors.md V32, ticks 0 and 1. -/
theorem test_idle : exec .idle (inPhase .idle [tick false .high]) = .next (inPhase .idle [tick false .high]) ∧
    ∃ t, exec .idle (inPhase .idle [tick true .high]) = .next t ∧ t.phase = .reqLow ∧ t.pinOe = true ∧
      t.pinOut = .low := ⟨rfl, _, rfl, rfl, rfl, rfl⟩
/-- 95_test_vectors.md V32, ticks 2 and 3. -/
theorem test_reqLow : (∃ t, exec .reqLow (inPhase .reqLow [tick false .high]) = .next t ∧ t.phase = .reqLow ∧
      t.delayCnt = 1) ∧
    ∃ t, exec .reqLow { inPhase .reqLow [tick false .high] with delayCnt := 1 } = .next t ∧ t.phase = .reqHigh ∧
      t.delayCnt = 0 := ⟨⟨_, rfl, rfl, rfl⟩, _, rfl, rfl, rfl⟩
/-- 95_test_vectors.md V32, tick 4: the only tick of the hold; `pt_count <- 0`. -/
theorem test_reqHigh : ∃ t, exec .reqHigh { inPhase .reqHigh [tick false .high] with ptCount := 4 } = .next t ∧
    t.phase = .ackLow ∧ t.delayCnt = 0 ∧ t.ptCount = 0 ∧ t.pinOe = false := ⟨_, rfl, rfl, rfl, rfl, rfl⟩
/-- 95_test_vectors.md V32, ticks 6 and 7. -/
theorem test_ackLow : (∃ t, exec .ackLow { inPhase .ackLow [tick false .low] with ptCount := 1 } = .next t ∧
      t.phase = .ackLow ∧ t.ptCount = 2) ∧
    ∃ t, exec .ackLow { inPhase .ackLow [tick false .high] with ptCount := 2 } = .next t ∧ t.phase = .ackHigh ∧
      t.ptCount = 0 := ⟨⟨_, rfl, rfl, rfl⟩, _, rfl, rfl, rfl⟩
/-- 95_test_vectors.md V32, ticks 8 and 9. -/
theorem test_ackHigh : (∃ t, exec .ackHigh (inPhase .ackHigh [tick false .high]) = .next t ∧ t.phase = .ackHigh ∧
      t.ptCount = 1) ∧
    ∃ t, exec .ackHigh { inPhase .ackHigh [tick false .low] with ptCount := 1 } = .next t ∧ t.phase = .frame ∧
      t.ptCount = 0 ∧ t.resultOut = 1 := ⟨⟨_, rfl, rfl, rfl⟩, _, rfl, rfl, rfl, rfl⟩
/-- 41_protocol_engine.md R127, its example. -/
theorem test_frame_stores : ∃ t,
    exec .frame { State.reset with phase := .frame, measIdx := 4, ptCount := 4, inputs := [tick false .high] } =
      .next t ∧ t.dur[4] = 4 ∧ t.dur[5] = 0 ∧ t.measIdx = 5 ∧ t.ptCount = 0 ∧ t.phase = .frame :=
  ⟨_, rfl, rfl, rfl, rfl, rfl, rfl⟩
/-- 95_test_vectors.md V32, tick 151: the last duration. -/
theorem test_frame_last : ∃ t,
    exec .frame { inPhase .frame [tick false .low] with measIdx := 79, ptCount := 2 } = .next t ∧ t.dur[79] = 2 ∧
      t.phase = .decode ∧ t.measIdx = 79 := ⟨_, rfl, rfl, rfl, rfl⟩

/-- A duration buffer whose first 16 entries are given. -/
def durations (xs : List Nat) : Vector Nat 80 := Vector.ofFn fun i => xs.getD i.val 0

/-- 95_test_vectors.md V24, its five rows, as the first byte of the frame. -/
theorem test_decode_bytes :
    frameByte (durations [4, 1, 4, 1, 4, 6, 4, 6, 4, 6, 4, 6, 4, 1, 4, 1]) 0 = 0x3C ∧
    frameByte (durations [4, 6, 4, 1, 4, 1, 4, 1, 4, 1, 4, 1, 4, 1, 4, 1]) 0 = 0x80 ∧
    frameByte (durations [4, 1, 4, 1, 4, 1, 4, 1, 4, 1, 4, 1, 4, 1, 4, 6]) 0 = 0x01 ∧
    frameByte (durations [4, 4, 0, 0, 100, 100, 5, 4, 100, 99, 1, 0, 7, 7, 3, 3]) 0 = 0x00 ∧
    frameByte (durations [4, 5, 0, 1, 99, 100, 3, 4, 0, 100, 1, 2, 6, 7, 2, 3]) 0 = 0xFF := by decide
/-- 41_protocol_engine.md R129, its example, as a step. -/
theorem test_decode_step : ∃ t, exec .decode { State.reset with
      phase := .decode, dur := durations [4, 1, 4, 1, 4, 6, 4, 6, 4, 6, 4, 6, 4, 1, 4, 1] } = .next t ∧
    t.frame = #v[0x3C, 0, 0, 0, 0] ∧ t.phase = .verify := ⟨_, rfl, by decide, rfl⟩

/-- The fixture in VERIFY with a frame. -/
def verifying (f : Vector Byte 5) : State := { inPhase .verify [tick false .high] with frame := f }

/-- 95_test_vectors.md V31, rows 1 and 4. -/
theorem test_verify_success : (∃ t, exec .verify (verifying #v[0x3C, 0, 0x19, 0, 0x55]) = .next t ∧
      t.meas = #v[60, 0, 25, 0] ∧ t.measValid = true ∧ t.result = .success ∧ t.phase = .done) ∧
    ∃ t, exec .verify (verifying #v[0xFF, 1, 0, 0, 0]) = .next t ∧ t.meas = #v[255, 1, 0, 0] :=
  ⟨⟨_, rfl, rfl, rfl, rfl, rfl⟩, _, rfl, rfl⟩
/-- 95_test_vectors.md V31, rows 2 and 5. -/
theorem test_verify_mismatch : (∃ t, exec .verify (verifying #v[0x3C, 0, 0x19, 0, 0x56]) = .next t ∧
      t.meas = #v[0, 0, 0, 0] ∧ t.measValid = false ∧ t.result = .checksumMismatch ∧ t.phase = .done) ∧
    ∃ t, exec .verify (verifying #v[0xFF, 1, 0, 0, 1]) = .next t ∧ t.result = .checksumMismatch :=
  ⟨⟨_, rfl, rfl, rfl, rfl, rfl⟩, _, rfl, rfl⟩
/-- The fixture in DONE with a good Measurement. -/
def holding (xs : List Inputs) : State :=
  { inPhase .done xs with frame := #v[60, 0, 25, 0, 85], meas := #v[60, 0, 25, 0], measValid := true, measIdx := 79 }

/-- 95_test_vectors.md V35: held until `start`, then cleared at the next tick. -/
theorem test_done : exec .done (holding [tick false .high]) = .next (holding [tick false .high]) ∧
    ∃ t, exec .done (holding [tick true .high]) = .next t ∧ t.phase = .reqLow ∧ t.meas = #v[0, 0, 0, 0] ∧
      t.measValid = false ∧ t.frame = #v[60, 0, 25, 0, 85] := ⟨rfl, _, rfl, rfl, rfl, rfl, rfl⟩
/-- 41_protocol_engine.md R130. -/
theorem test_resSuccess : ∃ t, exec .resSuccess (verifying #v[1, 2, 3, 4, 10]) = .next t ∧
    t.meas = #v[1, 2, 3, 4] ∧ t.resultOut = 0 := ⟨_, rfl, rfl, rfl⟩
/-- 41_protocol_engine.md R126. -/
theorem test_resResponseReady : ∃ t, exec .resResponseReady (inPhase .ackHigh []) = .next t ∧ t.phase = .frame ∧
    t.resultOut = 1 := ⟨_, rfl, rfl, rfl⟩
/-- 41_protocol_engine.md R130. -/
theorem test_resChecksumMismatch : ∃ t, exec .resChecksumMismatch (verifying #v[1, 2, 3, 4, 9]) = .next t ∧
    t.phase = .done ∧ t.resultOut = 2 ∧ t.meas = #v[0, 0, 0, 0] := ⟨_, rfl, rfl, rfl, rfl⟩
/-- 41_protocol_engine.md R128; 95_test_vectors.md P3: `pt_count = 101` at the end. -/
theorem test_resTimeout : ∃ t, exec .resTimeout { State.reset with phase := .ackLow } = .next t ∧ t.phase = .done ∧
    t.resultOut = 3 ∧ t.ptCount = 101 := ⟨_, rfl, rfl, rfl, rfl⟩

/-- 95_test_vectors.md V34: `rst` wins over `start`, and the first tick after it accepts a command. -/
theorem test_step_reset : ∃ t u, step (inPhase .reqLow [resetTick, tick true .high]) = .next t ∧ t.phase = .idle ∧
    step t = .next u ∧ u.phase = .reqLow ∧ u.delayCnt = 0 := ⟨_, _, rfl, rfl, rfl, rfl, rfl⟩
/-- 95_test_vectors.md V15, ticks 0 and 1, at the unit's port. -/
theorem test_step_bench : ∃ t u,
    step { inPhase .idle [benchTick true .low .high, benchTick false .high .low] with unitPort := .bench } = .next t ∧
    t.unitBusy = true ∧ t.unitExp = .low ∧ t.unitCount = 0 ∧ step t = .next u ∧ u.unitCount = 1 ∧ u.phase = .idle :=
  ⟨_, _, rfl, rfl, rfl, rfl, rfl, rfl, rfl⟩
/-- The host's two functions on one word: the operation placed is the one the next step runs. -/
theorem test_withFetchWord : decodeTableWord 8 3 = some .ackLow ∧
    ∃ t, step (State.reset.withFetchWord 8 3) = .next t ∧ t.phase = .ackHigh := ⟨rfl, _, rfl, rfl⟩

/-! ### For every obligation with hypotheses, states and operands that meet them, a clause at a time -/

theorem test_hyp_ResetStateHasItsStatedValues : ∃ s : State, s.phase = .idle ∧ s.now.rst = false ∧
    s.now.start = false ∧ s.dur[7] = 9 ∧ s.cfg = tiny :=
  ⟨{ inPhase .idle [tick false .low] with dur := Vector.replicate 80 9 }, rfl, rfl, rfl, rfl, rfl⟩
theorem test_hyp_ResetTickLoadsTheResetState :
    (∃ s t : State, s.now.rst = true ∧ step s = .next t ∧ t.now.rst = false ∧ t.now.start = true) ∧
    ∃ s t : State, s.now.rst = false ∧ s.phase ≠ .idle ∧ step s = .next t :=
  ⟨⟨inPhase .frame [resetTick, tick true .high], _, rfl, rfl, rfl, rfl⟩,
    inPhase .ackLow [tick false .low], _, rfl, by decide, rfl⟩
theorem test_hyp_ResetTickLoadsTheUnitsResetState : ∃ s : State, s.now.rst = true ∧ s.unitBusy = true :=
  ⟨unitBusyAt .high 7 [resetTick], rfl, rfl⟩
theorem test_hyp_AbandonedReadNeverFinishes : ∃ s : State, s.phase = .frame ∧ s.now.rst = true ∧
    ∀ j, j < 2 → (s.inputAt (j + 1)).start = false :=
  ⟨inPhase .frame [resetTick, tick false .low, tick false .high], rfl, rfl, by decide⟩
theorem test_hyp_ReadIsAcceptedInIdleAndDoneOnly : (∃ s : State, s.phase = .idle) ∧ (∃ s : State, s.phase = .done) ∧
    ∃ s : State, s.phase ≠ .idle ∧ s.phase ≠ .done :=
  ⟨⟨inPhase .idle [], rfl⟩, ⟨inPhase .done [], rfl⟩, inPhase .verify [], by decide⟩
theorem test_hyp_PtStepHasItsThreeOutcomes :
    (Level.high ≠ .low ∧ ptStep 3 .low 3 .high = .done 3) ∧ ptStep 3 .low 3 .low = .timedOut ∧
    (2 ≠ 3 ∧ ptStep 3 .low 2 .low = .continues 3 ∧ 2 ≤ 3) ∧ ptStep 0 .low 0 .low = .timedOut := by decide
theorem test_hyp_MeasurementCountsLeadingSamples :
    (3 ≤ 3 ∧ (∀ i, i < 3 → levelAt .high [(.low, 3)] (0 + i) = .low) ∧ levelAt .high [(.low, 3)] (0 + 3) ≠ .low) ∧
    (0 ≤ 3 ∧ levelAt .high [] (0 + 0) ≠ .low) ∧ (measureFn 3 .low (levelAt .low []) 0).1 = .timeout := by decide
theorem test_hyp_IdleUnitTakesACommand : ∃ s : State, s.unitBusy = false := ⟨State.reset, rfl⟩
theorem test_hyp_BusyUnitCountsDeliversAndChains :
    (∃ s : State, s.unitBusy = true ∧ s.now.rst = false ∧ s.now.pinIn ≠ s.unitExp) ∧
    (∃ s : State, s.unitBusy = true ∧ s.now.rst = false ∧ s.now.pinIn = s.unitExp ∧ s.unitCount = s.cfg.ceiling) ∧
    ∃ s : State, s.unitBusy = true ∧ s.now.rst = false ∧ s.now.pinIn = s.unitExp ∧ s.unitCount ≠ s.cfg.ceiling :=
  ⟨⟨unitBusyAt .high 100 [tick false .low], by decide⟩, ⟨unitBusyAt .high 100 [tick false .high], by decide⟩,
    unitBusyAt .high 99 [tick false .high], by decide⟩
theorem test_hyp_UnitDeliversTheMeasure : ∃ s : State, s.unitPort = .bench ∧ s.unitBusy = false ∧
    s.now.ptStart = true ∧ s.now.ptLevel = .low ∧
    measureFn s.cfg.ceiling .low (fun j => (s.inputAt (j + 1)).pinIn) 0 = (.count 1, 2) ∧ s.NoReset 3 ∧
    ∀ j, j < 2 → (s.inputAt (j + 1)).ptStart = false :=
  ⟨{ inPhase .idle [benchTick true .low .high, benchTick false .low .low, benchTick false .low .high] with
      unitPort := .bench, cfg := { tiny with ceiling := 1 } }, rfl, rfl, rfl, rfl, by decide,
    State.noReset_of_all rfl (by decide), by decide⟩
theorem test_hyp_EveryMeasurementEnds : ∃ s : State, s.UnitInv ∧ s.unitBusy = true ∧ s.unitCount = s.cfg.ceiling ∧
    s.NoReset (s.cfg.ceiling + 1) :=
  ⟨{ unitBusyAt .high 3 (List.replicate 4 (tick false .high)) with cfg := tiny },
    ⟨by decide, by decide⟩, rfl, rfl, State.noReset_of_all rfl (by decide)⟩
theorem test_hyp_MeasuringNeverTouchesThePin : ∃ s s' t t' : State, s.SameUnit s' ∧ s.cfg = s'.cfg ∧
    s.now.pinIn = s'.now.pinIn ∧ exec (.ptNop .low) s = .next t ∧ exec (.ptNop .low) s' = .next t' ∧
    s.phase ≠ s'.phase :=
  ⟨inPhase .frame [tick false .low], inPhase .idle [tick true .low], _, _, ⟨rfl, rfl, rfl⟩, rfl, rfl, rfl, rfl,
    by decide⟩
theorem test_hyp_UnitCounterStaysInRange : ∃ s t : State, s.UnitInv ∧ step s = .next t ∧
    s.cfg.ceiling + 2 ≤ 2 ^ s.cfg.dw ∧ t.unitCount = s.cfg.ceiling + 1 :=
  ⟨unitBusyAt .high 100 [tick false .high], _, ⟨by decide, by decide⟩, rfl, by decide, rfl⟩
theorem test_hyp_DeliveredDurationsAreWellFormed :
    (∃ s : State, s.UnitInv ∧ s.ptDone = true ∧ s.ptTimeout = true) ∧
    ∃ s : State, s.UnitInv ∧ s.ptDone = true ∧ s.ptTimeout = false ∧ s.ptDur = 100 :=
  ⟨⟨unitBusyAt .high 100 [tick false .high], ⟨by decide, by decide⟩, rfl, rfl⟩,
    unitBusyAt .high 100 [tick false .low], ⟨by decide, by decide⟩, rfl, rfl, rfl⟩
theorem test_hyp_ChainedMeasurementsCountOneLess :
    let f := levelAt .low [(.high, 1), (.low, 1), (.high, 4)]
    f 0 = .high ∧ (∀ j, j < 0 + 1 → f (0 + 1 + j) = .low) ∧ (∀ j, j < 3 + 1 → f (0 + 0 + 2 + j) = .high) ∧
    f (0 + 0 + 3 + 3) = .low := by decide
theorem test_hyp_IdleWaitsForRead : (∃ s : State, s.phase = .idle ∧ s.now.start = true) ∧
    ∃ s : State, s.phase = .idle ∧ s.now.start = false :=
  ⟨⟨inPhase .idle [tick true .high], rfl, rfl⟩, inPhase .idle [tick false .high], rfl, rfl⟩
theorem test_hyp_RequestLowHoldsItsTicks :
    (∃ s : State, s.phase = .reqLow ∧ s.delayCnt = s.cfg.reqLowTicks - 1) ∧
    (∃ s : State, s.delayCnt ≠ s.cfg.reqLowTicks - 1) ∧
    ∃ s : State, 1 ≤ s.cfg.reqLowTicks ∧ s.phase = .reqLow ∧ s.delayCnt = 0 ∧ s.NoReset s.cfg.reqLowTicks :=
  ⟨⟨{ inPhase .reqLow [] with delayCnt := 1 }, rfl, rfl⟩, ⟨inPhase .reqLow [], by decide⟩,
    inPhase .reqLow [tick false .low, tick true .high], by decide, rfl, rfl, State.noReset_of_all rfl (by decide)⟩
theorem test_hyp_RequestHighHoldsItsTicks :
    (∃ s : State, s.phase = .reqHigh ∧ s.delayCnt = s.cfg.reqHighTicks - 1) ∧
    (∃ s : State, s.delayCnt ≠ s.cfg.reqHighTicks - 1) ∧
    ∃ s : State, 1 ≤ s.cfg.reqHighTicks ∧ s.phase = .reqHigh ∧ s.delayCnt = 0 ∧ s.NoReset s.cfg.reqHighTicks :=
  ⟨⟨inPhase .reqHigh [], rfl, rfl⟩, ⟨{ inPhase .reqHigh [] with cfg := Config.default }, by decide⟩,
    inPhase .reqHigh [tick true .low], by decide, rfl, rfl, State.noReset_of_all rfl (by decide)⟩
theorem test_hyp_AckLowMeasuresTheAcknowledgement : (∃ s : State, s.phase = .ackLow ∧ s.now.pinIn = .high) ∧
    (∃ s : State, s.now.pinIn = .low ∧ s.ptCount ≠ s.cfg.ceiling) ∧
    ∃ s : State, s.now.pinIn = .low ∧ s.ptCount = s.cfg.ceiling :=
  ⟨⟨inPhase .ackLow [tick false .high], rfl, rfl⟩, ⟨inPhase .ackLow [tick false .low], by decide⟩,
    { inPhase .ackLow [tick false .low] with ptCount := 3 }, rfl, rfl⟩
theorem test_hyp_AckHighEndsTheHandshake : (∃ s : State, s.phase = .ackHigh ∧ s.now.pinIn = .low) ∧
    (∃ s : State, s.now.pinIn = .high ∧ s.ptCount ≠ s.cfg.ceiling) ∧
    (∃ s : State, s.now.pinIn = .high ∧ s.ptCount = s.cfg.ceiling) ∧
    (∃ s t : State, s.now.rst = false ∧ s.phase = .frame ∧ s.result = .responseReady ∧ step s = .next t) ∧
    (∃ s t : State, s.now.rst = false ∧ s.phase = .decode ∧ s.result = .responseReady ∧ step s = .next t) ∧
    ∃ s t : State, s.now.rst = false ∧ s.phase = .verify ∧ s.result = .responseReady ∧ step s = .next t :=
  ⟨⟨inPhase .ackHigh [tick false .low], rfl, rfl⟩, ⟨inPhase .ackHigh [tick false .high], by decide⟩,
    ⟨{ inPhase .ackHigh [tick false .high] with ptCount := 3 }, rfl, rfl⟩,
    ⟨{ inPhase .frame [tick false .high] with result := .responseReady }, _, rfl, rfl, rfl, rfl⟩,
    ⟨{ inPhase .decode [tick false .high] with result := .responseReady }, _, rfl, rfl, rfl, rfl⟩,
    { inPhase .verify [tick false .high] with result := .responseReady }, _, rfl, rfl, rfl, rfl⟩
theorem test_hyp_FrameMeasuresTheDataDurations :
    (∃ s : State, s.measIdx.val = 0 ∧ s.now.pinIn ≠ .low ∧ s.measIdx.val < 79) ∧
    (∃ s : State, s.measIdx.val = 78 ∧ s.now.pinIn ≠ .low ∧ s.measIdx.val < 79) ∧
    (∃ s : State, s.measIdx.val = 79 ∧ s.now.pinIn ≠ .high ∧ s.phase = .frame) ∧
    (∃ s : State, s.measIdx.val = 79 ∧ s.now.pinIn = .high ∧ s.ptCount ≠ s.cfg.ceiling) ∧
    ∃ s : State, s.measIdx.val = 0 ∧ s.now.pinIn = .low ∧ s.ptCount = s.cfg.ceiling :=
  ⟨⟨inPhase .frame [tick false .high], by decide⟩,
    ⟨{ inPhase .frame [tick false .high] with measIdx := 78 }, by decide⟩,
    ⟨{ inPhase .frame [tick false .low] with measIdx := 79 }, by decide⟩,
    ⟨{ inPhase .frame [tick false .high] with measIdx := 79 }, by decide⟩,
    { inPhase .frame [tick false .low] with ptCount := 3 }, by decide⟩

/-- The invariants of a state, decided item by item. -/
theorem inv_of (s : State) (h : s.DelayInRange ∧ s.CountInRange ∧ s.DurationsInRange ∧ s.ValidIffSuccess ∧
    s.MeasurementSound ∧ s.ResultSound ∧ s.DriveSound) : s.Inv :=
  ⟨h.1, h.2.1, h.2.2.1, h.2.2.2.1, h.2.2.2.2.1, h.2.2.2.2.2.1, h.2.2.2.2.2.2⟩

theorem test_hyp_TimeoutAbortsTheRead : ∃ s t : State, measuring s.phase = true ∧ s.now.pinIn = s.expectedLevel ∧
    s.ptCount = s.cfg.ceiling ∧ s.Inv ∧ exec (microOp s.phase) s = .next t :=
  ⟨{ inPhase .ackHigh [tick false .high] with ptCount := 3 }, _, rfl, rfl, rfl, inv_of _ (by decide), rfl⟩
theorem test_hyp_DecodePacksTheFortyBits : ∃ s : State, s.phase = .decode := ⟨inPhase .decode [], rfl⟩
theorem test_hyp_VerifyTestsTheChecksum :
    (∃ s : State, (s.frame[0].toNat + s.frame[1].toNat + s.frame[2].toNat + s.frame[3].toNat) % 256 =
      s.frame[4].toNat ∧ s.phase = .verify) ∧
    ∃ s : State, (s.frame[0].toNat + s.frame[1].toNat + s.frame[2].toNat + s.frame[3].toNat) % 256 ≠
      s.frame[4].toNat :=
  ⟨⟨verifying #v[0xFF, 0xFF, 0xFF, 0xFF, 0xFC], by decide⟩, verifying #v[0, 0, 0, 0, 0xFF], by decide⟩
theorem test_hyp_DoneHoldsTheResults : (∃ s : State, s.phase = .done ∧ s.now.start = true) ∧
    ∃ s : State, s.phase = .done ∧ s.now.start = false :=
  ⟨⟨holding [tick true .high], rfl, rfl⟩, holding [tick false .low], rfl, rfl⟩
theorem test_hyp_ResponsesAreTheWritesOfTheirRules : (∃ s : State, s.now.pinIn = .low) ∧
    ∃ s : State, measuring s.phase = true ∧ s.now.pinIn = s.expectedLevel ∧ s.ptCount = s.cfg.ceiling :=
  ⟨⟨inPhase .ackHigh [tick false .low], rfl⟩, { inPhase .frame [tick false .low] with ptCount := 3 }, rfl, rfl, rfl⟩
theorem test_hyp_StepRunsTheFetchedOperations : ∃ (s : State) (u i : Instr), s.now.rst = false ∧
    decode .ptcmd s.ptCommandWord = .ok u ∧ decode .phase s.phase.code = .ok i ∧ u = .measureLevel .low :=
  ⟨inPhase .reqHigh [tick false .high], _, _, rfl, rfl, rfl, rfl⟩
theorem test_hyp_PlacedWordIsFetched : decodeTableWord 1 1 = some .read ∧
    decodeTableWord 2 3 = some (.measureLevel .high) ∧ decodeTableWord 4 8 = some .done := ⟨rfl, rfl, rfl⟩
theorem test_hyp_ConfigurationIsNeverWritten : ∃ s t : State, step s = .next t ∧ s.cfg = tiny ∧ s.inputs.length = 2 :=
  ⟨inPhase .idle [tick true .high, resetTick], _, rfl, rfl, rfl⟩
theorem test_hyp_PhaseTransitionsAreTheTable (ph : Phase) (b : Bool) : ∃ s t : State, step s = .next t ∧
    s.now.rst = b ∧ s.phase = ph :=
  ⟨inPhase ph [{ Inputs.quiet with rst := b }], _, step_eq _, rfl, rfl⟩
theorem test_hyp_RegistersChangeOnlyByTheirRules : ∃ s t : State, s.now.rst = false ∧ step s = .next t ∧
    t.ptCount ≠ s.ptCount ∧ t.measIdx ≠ s.measIdx ∧ t.dur ≠ s.dur ∧ s.phase = .frame :=
  ⟨{ inPhase .frame [tick false .high] with ptCount := 3 }, _, rfl, rfl, by decide, by decide, by decide, rfl⟩
theorem test_hyp_OnlyTheMeasuredDurationIsStored : ∃ s t : State, s.now.rst = false ∧ step s = .next t ∧
    t.dur[79] ≠ s.dur[79] :=
  ⟨{ inPhase .frame [tick false .low] with ptCount := 3, measIdx := 79 }, _, rfl, rfl, by decide⟩
theorem test_hyp_IgnoredInputsDoNotMatter :
    (∃ s s' : State, s.SameBlock s' ∧ s.now.rst = false ∧ s'.now.rst = false ∧ measuring s.phase = false ∧
      s.now.start = s'.now.start ∧ s.now.pinIn ≠ s'.now.pinIn) ∧
    (∃ s s' : State, s.SameBlock s' ∧ s.now.rst = false ∧ s'.now.rst = false ∧ accepting s.phase = false ∧
      s.now.pinIn = s'.now.pinIn ∧ s.now.start ≠ s'.now.start) ∧
    ∃ s s' : State, s.SameBlock s' ∧ s.now.rst = false ∧ s'.now.rst = false ∧ s.phase = .decode ∧
      s.now.pinIn ≠ s'.now.pinIn ∧ s.now.start ≠ s'.now.start :=
  ⟨⟨inPhase .done [tick true .low], inPhase .done [tick true .high], State.SameBlock.refl _, rfl, rfl, rfl, rfl,
      by decide⟩,
    ⟨inPhase .frame [tick true .low], inPhase .frame [tick false .low], State.SameBlock.refl _, rfl, rfl, rfl, rfl,
      by decide⟩,
    inPhase .decode [tick true .low], inPhase .decode [tick false .high], State.SameBlock.refl _, rfl, rfl, rfl,
      by decide, by decide⟩
theorem test_hyp_FailuresAriseOnlyAtTheirTicks :
    (∃ s t : State, s.Inv ∧ s.now.rst = false ∧ step s = .next t ∧ t.result = .timeout ∧ s.result ≠ .timeout) ∧
    ∃ s t : State, s.Inv ∧ s.now.rst = false ∧ step s = .next t ∧ t.result = .checksumMismatch ∧
      s.result ≠ .checksumMismatch :=
  ⟨⟨{ inPhase .ackLow [tick false .low] with ptCount := 3 }, _, inv_of _ (by decide), rfl, rfl, rfl, by decide⟩,
    { verifying #v[0, 0, 0, 0, 1] with result := .responseReady }, _, inv_of _ (by decide), rfl, rfl, rfl, by decide⟩
theorem test_hyp_InvariantsAreKeptByEveryStep : ∃ s t : State, s.Inv ∧ step s = .next t ∧ s.phase = .frame ∧
    t.phase = .decode :=
  ⟨{ inPhase .frame [tick false .low] with ptCount := 3, measIdx := 79, result := .responseReady }, _,
    inv_of _ (by decide), rfl, rfl, rfl⟩
theorem test_hyp_CountersNeverWrap : ∃ s t : State, s.cfg.Runnable ∧ s.Inv ∧ s.UnitInv ∧ step s = .next t ∧
    t.ptCount = t.cfg.ceiling + 1 :=
  ⟨{ inPhase .ackLow [tick false .low] with ptCount := 3 }, _, by decide, inv_of _ (by decide),
    ⟨by decide, by decide⟩, rfl, rfl⟩
theorem test_hyp_UnitMirrorsTheEngine : ∃ s t : State, s.unitPort = .engine ∧ s.UnitAgrees ∧ step s = .next t ∧
    s.phase = .reqHigh ∧ t.phase = .ackLow ∧ t.unitBusy = true :=
  ⟨inPhase .reqHigh [tick false .high], _, rfl, ⟨by decide, by decide, by decide⟩, rfl, rfl, rfl, rfl⟩

/-- The fixture measuring the handshake HIGH, its unit agreeing. -/
def agreeing (c : Nat) (xs : List Inputs) : State :=
  { inPhase .ackHigh xs with ptCount := c, unitBusy := true, unitExp := .high, unitCount := c }

theorem test_hyp_WiredFormIsTheSameMachine :
    (∃ s : State, s.unitPort = .engine ∧ s.UnitAgrees ∧ s.phase = .ackHigh ∧ s.ptCount = s.cfg.ceiling) ∧
    (∃ s : State, s.unitPort = .engine ∧ s.UnitAgrees ∧ s.phase = .reqHigh) ∧
    ∃ s : State, s.unitPort = .engine ∧ s.UnitAgrees ∧ s.now.rst = true :=
  ⟨⟨agreeing 3 [tick false .high], rfl, ⟨by decide, by decide, by decide⟩, rfl, rfl⟩,
    ⟨inPhase .reqHigh [tick false .high], rfl, ⟨by decide, by decide, by decide⟩, rfl⟩,
    agreeing 0 [resetTick], rfl, ⟨by decide, by decide, by decide⟩, rfl⟩
/-- 41_protocol_engine.md R133, R128: the wired form at a Timeout. -/
theorem test_wiredStep_timeout : (wiredStep (agreeing 3 [tick false .high])).phase = .done ∧
    (wiredStep (agreeing 3 [tick false .high])).ptCount = 4 ∧
    (wiredStep (agreeing 3 [tick false .high])).unitBusy = false := ⟨rfl, rfl, rfl⟩

/-- A read of the fixture with the sensor silent: `start` at the first tick, the line HIGH. -/
def silentRead (n : Nat) : State := inPhase .idle (tick true .high :: List.replicate n (tick false .high))

theorem silentRead_noReset (n : Nat) : (silentRead n).NoReset (n + 1) :=
  State.noReset_of_all (by simp [silentRead, inPhase, tick, Inputs.quiet]) (by simp [silentRead, inPhase])

/-- A read whose 82 measurements each end at their first sample (95_test_vectors.md V23), in a configuration of one
tick each. -/
def shortestRead : State :=
  { State.reset with
    cfg := { tiny with ceiling := 1, reqLowTicks := 1, reqHighTicks := 1 }
    inputs := (List.range 90).map fun t => tick (t == 0) (if t % 2 = 1 then .high else .low) }

theorem test_hyp_ReadGivesWhatReadFnGives_timeout : ∃ s : State, s.Accepts ∧ 1 ≤ s.cfg.reqLowTicks ∧
    1 ≤ s.cfg.reqHighTicks ∧
    readFn s.cfg.ceiling (fun j => (s.inputAt (s.cfg.reqLowTicks + s.cfg.reqHighTicks + 1 + j)).pinIn) =
      { result := .timeout, measurement := none, consumed := 5 } ∧ s.NoReset 9 :=
  ⟨silentRead 12, ⟨rfl, rfl, rfl⟩, by decide, by decide, by decide, State.noReset_of_all rfl (by decide)⟩
theorem test_hyp_ReadGivesWhatReadFnGives_success : ∃ s : State, s.Accepts ∧ 1 ≤ s.cfg.reqLowTicks ∧
    1 ≤ s.cfg.reqHighTicks ∧
    readFn s.cfg.ceiling (fun j => (s.inputAt (s.cfg.reqLowTicks + s.cfg.reqHighTicks + 1 + j)).pinIn) =
      { result := .success, measurement := some #v[0, 0, 0, 0], consumed := 82 } ∧ s.NoReset 87 :=
  ⟨shortestRead, ⟨rfl, rfl, rfl⟩, by decide, by decide, by rfl, State.noReset_of_all rfl (by decide)⟩
theorem test_hyp_ReadPhasesStandAtTheirTicks :
    (∃ s : State, s.Accepts ∧ 1 ≤ s.cfg.reqLowTicks ∧ 1 ≤ s.cfg.reqHighTicks ∧ s.NoReset 87 ∧
      measureRun s.cfg.ceiling (fun j => (s.inputAt (s.cfg.reqLowTicks + s.cfg.reqHighTicks + 1 + j)).pinIn) 2 0 0 =
        .counted [0, 0] 2 ∧
      measureRun s.cfg.ceiling (fun j => (s.inputAt (s.cfg.reqLowTicks + s.cfg.reqHighTicks + 1 + j)).pinIn) 82 0 0 =
        .counted (List.replicate 82 0) 82) ∧
    ∃ s : State, s.Accepts ∧ 1 ≤ s.cfg.reqLowTicks ∧ 1 ≤ s.cfg.reqHighTicks ∧ s.NoReset 9 ∧
      measureRun s.cfg.ceiling (fun j => (s.inputAt (s.cfg.reqLowTicks + s.cfg.reqHighTicks + 1 + j)).pinIn) 82 0 0 =
        .timedOut 1 5 :=
  ⟨⟨shortestRead, ⟨rfl, rfl, rfl⟩, by decide, by decide, State.noReset_of_all rfl (by decide), by rfl, by rfl⟩,
    silentRead 12, ⟨rfl, rfl, rfl⟩, by decide, by decide, State.noReset_of_all rfl (by decide), by decide⟩
theorem test_hyp_ReadEndsWithinItsBound : ∃ s : State, s.Inv ∧ 1 ≤ s.cfg.reqLowTicks ∧ 1 ≤ s.cfg.reqHighTicks ∧
    s.NoReset (s.cfg.reqLowTicks + s.cfg.reqHighTicks + 82 * (s.cfg.ceiling + 1) + 3) ∧ s.Accepts :=
  ⟨silentRead 400, inv_of _ (by decide), by decide, by decide,
    (silentRead_noReset 400).mono (show 2 + 1 + 82 * (3 + 1) + 3 ≤ 401 by decide),
    ⟨rfl, rfl, rfl⟩⟩
theorem test_hyp_ReadEndsWithinItsBound_stays : ∃ s t : State, s.Inv ∧ s.phase = .done ∧ s.now.start = false ∧
    s.now.rst = false ∧ step s = .next t :=
  ⟨holding [tick false .low], _, inv_of _ (by decide), rfl, rfl, rfl, rfl⟩
theorem test_hyp_NoReadEndsBeforeItsFirstSample : ∃ s t : State, s.Accepts ∧ 1 ≤ s.cfg.reqLowTicks ∧
    1 ≤ s.cfg.reqHighTicks ∧ s.NoReset (s.cfg.reqLowTicks + s.cfg.reqHighTicks + 2) ∧ State.After 4 s t :=
  ⟨silentRead 12, _, ⟨rfl, rfl, rfl⟩, by decide, by decide, State.noReset_of_all rfl (by decide), after_iff.mpr rfl⟩
theorem test_hyp_NothingLeaksBetweenReads : ∃ s s' : State, s.cfg = s'.cfg ∧ s.Accepts ∧ s'.Accepts ∧
    (∀ j, s.inputAt j = s'.inputAt j) ∧ s.phase ≠ s'.phase ∧ s.frame ≠ s'.frame :=
  ⟨inPhase .idle [tick true .high], holding [tick true .high], rfl, ⟨rfl, rfl, rfl⟩, ⟨rfl, rfl, rfl⟩,
    fun _ => rfl, by decide, by decide⟩
theorem test_hyp_ResultsAreHeldUntilTheNextRead :
    (∃ s : State, s.phase = .done ∧ s.NoReset 2 ∧ ∀ j, j < 2 → (s.inputAt j).start = false) ∧
    (∃ s t : State, s.phase = .done ∧ s.now.rst = true ∧ step s = .next t) ∧
    (∃ s t : State, s.phase = .done ∧ s.now.start = true ∧ step s = .next t) ∧
    ∃ s : State, s.Inv ∧ s.measValid = false :=
  ⟨⟨holding [tick false .low, tick false .high], rfl, State.noReset_of_all rfl (by decide), by decide⟩,
    ⟨holding [resetTick], _, rfl, rfl, rfl⟩, ⟨holding [tick true .low], _, rfl, rfl, rfl⟩,
    State.reset, inv_of _ (by decide), rfl⟩
theorem test_hyp_NominalFrameIsReadBack :
    (∃ f : Vector Byte 5, (f[0].toNat + f[1].toNat + f[2].toNat + f[3].toNat) % 256 = f[4].toNat) ∧
    ∃ f : Vector Byte 5, (f[0].toNat + f[1].toNat + f[2].toNat + f[3].toNat) % 256 ≠ f[4].toNat :=
  ⟨⟨#v[0x3C, 0, 0x19, 0, 0x55], by decide⟩, #v[0x3C, 0, 0x19, 0, 0x56], by decide⟩
theorem test_hyp_LateAcknowledgementIsNotWaitedFor : ∃ s : State, s.phase = .ackLow ∧ s.ptCount = 0 ∧
    s.now.rst = false ∧ s.now.pinIn = .high := ⟨inPhase .ackLow [tick false .high], rfl, rfl, rfl, rfl⟩

end Sys2Proof.Tests
end

section
/-! PROOFS. Every output as a function of the state (10_state.md R30), one lemma per output that its table gives by the
phase. -/

namespace Sys2Proof.Machine

theorem State.busy_iff (s : State) : s.busy = true ↔ s.phase ≠ .idle ∧ s.phase ≠ .done := by
  unfold State.busy
  cases s.phase <;> simp [accepting]

theorem State.doneOut_iff (s : State) : s.doneOut = true ↔ s.phase = .done := decide_eq_true_iff

theorem State.rvalid_iff (s : State) :
    s.rvalid = true ↔ s.phase = .frame ∨ s.phase = .decode ∨ s.phase = .verify ∨ s.phase = .done := by
  unfold State.rvalid
  cases s.phase <;> simp

theorem State.pinOe_iff (s : State) : s.pinOe = true ↔ s.phase = .reqLow ∨ s.phase = .reqHigh := by
  unfold State.pinOe
  cases s.phase <;> simp

theorem State.pinOut_eq_low_iff (s : State) : s.pinOut = .low ↔ s.phase = .reqLow := by
  unfold State.pinOut
  cases s.phase <;> simp

/-- Settles O30: the outputs that depend on the phase by their table's rows, the others read off their registers. -/
theorem outputsFollowThePhase : Obligations.OutputsFollowThePhase := fun s =>
  ⟨s.busy_iff, s.doneOut_iff, s.rvalid_iff, rfl, rfl, rfl, rfl, rfl, rfl, s.pinOe_iff, s.pinOut_eq_low_iff⟩

end Sys2Proof.Machine
end

section
/-! PROOFS. The pulse_timer unit at one tick: what its registers become (`unitTick_…`) and what it delivers
(`unitOutput_…`), one equation for the idle unit and one per outcome of `pt_step` for the busy one
(40_pulse_timer.md R104, R105). -/

namespace Sys2Proof.Machine

variable {s : State}

theorem State.unitTick_idle (hb : s.unitBusy = false) (cmd : Option Level) : s.unitTick cmd =
    s.withUnit cmd.isSome (cmd.getD s.unitExp) (if cmd.isSome then 0 else s.unitCount) := by
  simp [State.unitTick, hb]

theorem State.unitTick_counted (hb : s.unitBusy = true) (h : s.now.pinIn ≠ s.unitExp) (cmd : Option Level) :
    s.unitTick cmd = s.withUnit cmd.isSome (cmd.getD s.unitExp) 0 := by
  simp [State.unitTick, hb, s.pinSample_eq, ptStep_ne h, State.withUnit]

theorem State.unitTick_timedOut (hb : s.unitBusy = true) (h : s.now.pinIn = s.unitExp)
    (hc : s.unitCount = s.cfg.ceiling) (cmd : Option Level) : s.unitTick cmd =
      s.withUnit cmd.isSome (cmd.getD s.unitExp) (if cmd.isSome then 0 else s.cfg.ceiling + 1) := by
  simp [State.unitTick, hb, s.pinSample_eq, h, hc, ptStep_timedOut, State.withUnit]

theorem State.unitTick_continues (hb : s.unitBusy = true) (h : s.now.pinIn = s.unitExp)
    (hc : s.unitCount ≠ s.cfg.ceiling) (cmd : Option Level) :
    s.unitTick cmd = s.withUnit true s.unitExp (s.unitCount + 1) := by
  simp [State.unitTick, hb, s.pinSample_eq, h, ptStep_continues hc, State.withUnit]

theorem State.unitOutput_counted (hr : s.now.rst = false) (hb : s.unitBusy = true) (h : s.now.pinIn ≠ s.unitExp) :
    s.unitOutput = some (.count s.unitCount) := by
  simp [State.unitOutput, hr, hb, s.pinSample_eq, ptStep_ne h]

theorem State.unitOutput_timedOut (hr : s.now.rst = false) (hb : s.unitBusy = true) (h : s.now.pinIn = s.unitExp)
    (hc : s.unitCount = s.cfg.ceiling) : s.unitOutput = some .timeout := by
  simp [State.unitOutput, hr, hb, s.pinSample_eq, h, hc, ptStep_timedOut]

/-! ### The engine's command to the unit (41_protocol_engine.md R133) -/

theorem State.unitCounted_counted (hr : s.now.rst = false) (hb : s.unitBusy = true) (h : s.now.pinIn ≠ s.unitExp) :
    s.unitCounted = true := by
  simp [State.unitCounted, State.unitOutput_counted hr hb h]

theorem State.unitCounted_timedOut (hr : s.now.rst = false) (hb : s.unitBusy = true) (h : s.now.pinIn = s.unitExp)
    (hc : s.unitCount = s.cfg.ceiling) : s.unitCounted = false := by
  simp [State.unitCounted, State.unitOutput_timedOut hr hb h hc]

theorem State.unitCommand_engine (h : s.unitPort = .engine) : s.unitCommand = s.engineCommand := by
  simp [State.unitCommand, h]

/-- In a measuring phase the engine gives a command only when the unit has counted a pulse. -/
theorem State.engineCommand_of_not_counted (hm : measuring s.phase = true) (h : s.unitCounted = false) :
    s.engineCommand = none := by
  unfold State.engineCommand
  cases hp : s.phase <;> simp [h, hp, measuring] at hm ⊢

/-- Outside the measuring phases the engine gives a command only at the end of the request. -/
theorem State.engineCommand_of_not_measuring (hm : measuring s.phase = false) (hp : s.phase ≠ .reqHigh) :
    s.engineCommand = none := by
  unfold State.engineCommand
  cases h : s.phase <;> simp [h, measuring] at hm hp ⊢

theorem State.engineCommand_reqHigh (hp : s.phase = .reqHigh) :
    s.engineCommand = if s.delayCnt = s.cfg.reqHighTicks - 1 then some .low else none := by
  simp [State.engineCommand, hp]

theorem State.engineCommand_ackLow (hp : s.phase = .ackLow) (hu : s.unitCounted = true) :
    s.engineCommand = some .high := by
  simp [State.engineCommand, hp, hu]

theorem State.engineCommand_ackHigh (hp : s.phase = .ackHigh) (hu : s.unitCounted = true) :
    s.engineCommand = some .low := by
  simp [State.engineCommand, hp, hu]

theorem levelOfIndex_succ (n : Nat) : levelOfIndex (n + 1) = (levelOfIndex n).flip := by
  rw [levelOfIndex_eq, levelOfIndex_eq]
  obtain h | h := Nat.mod_two_eq_zero_or_one n
  · simp [h, show (n + 1) % 2 = 1 by omega, Level.flip]
  · simp [h, show (n + 1) % 2 = 0 by omega, Level.flip]

theorem State.engineCommand_frame (hp : s.phase = .frame) (hu : s.unitCounted = true) :
    s.engineCommand = if s.measIdx.val < 79 then some (levelOfIndex (s.measIdx.val + 1)) else none := by
  simp [State.engineCommand, hp, hu, levelOfIndex_succ]

end Sys2Proof.Machine
end

section
/-! PROOFS. Inside the block the unit's registers are functions of the engine's (10_state.md R31). The idea: at a tick
where the unit takes a command, the engine's command is the one of the measurement that its next phase makes
(`State.measurement`); at any other tick the unit and the engine count the same sample. -/

namespace Sys2Proof.Machine

/-- The measurement a state's phase makes, by its expected level: none outside the measuring phases. -/
def State.measurement (s : State) : Option Level :=
  if measuring s.phase then some s.expectedLevel else none

theorem State.measurement_of_not_measuring {s : State} (h : measuring s.phase = false) : s.measurement = none := by
  simp [State.measurement, h]

theorem measuring_iff (p : Phase) : measuring p = true ↔ p = .ackLow ∨ p = .ackHigh ∨ p = .frame := by
  cases p <;> simp [measuring]

/-- The unit, loaded with three values beside the block `n`, agrees with it. -/
theorem State.unitAgrees_withUnit_advance {n : State} {b : Bool} {l : Level} {c : Nat} (hb : b = measuring n.phase)
    (hl : measuring n.phase = true → l = n.expectedLevel) (hc : c = n.ptCount) :
    ((n.withUnit b l c).advance).UnitAgrees := ⟨hb, hl, hc⟩

theorem State.unitAgrees_reset : State.reset.UnitAgrees := ⟨rfl, by decide, rfl⟩

section Tick
variable {s n : State} (hport : s.unitPort = .engine) (ha : s.UnitAgrees) (hr : s.now.rst = false)
  (hn : phaseNext s.phase s = n)
include hport ha hr hn

/-- Outside the measuring phases the unit is idle: it takes up the measurement of the next phase. -/
theorem State.UnitAgrees.tickNext_idle (hm : measuring s.phase = false) (hcmd : s.engineCommand = n.measurement)
    (hcount : n.ptCount = if measuring n.phase then 0 else s.ptCount) : (tickNext s).UnitAgrees := by
  have hb : s.unitBusy = false := ha.busy.trans hm
  rw [tickNext_run hr, hn, State.unitCommand_engine hport, State.unitTick_idle hb, hcmd]
  apply State.unitAgrees_withUnit_advance <;> cases h : measuring n.phase <;>
    simp [State.measurement, h, hcount, ha.count]

/-- Between two phases that measure nothing the unit stays idle, unless the request is ending. -/
theorem State.UnitAgrees.tickNext_quiet {p : Phase} (hp : s.phase = p) (hm : measuring p = false) (hq : p ≠ .reqHigh)
    (hm' : measuring n.phase = false) (hcount : n.ptCount = s.ptCount) : (tickNext s).UnitAgrees := by
  subst hp
  apply ha.tickNext_idle hport hr hn hm
  · rw [State.engineCommand_of_not_measuring hm hq, State.measurement_of_not_measuring hm']
  · simp [hm', hcount]

/-- At the end of a pulse the unit clears its counter and takes up the measurement of the next phase. -/
theorem State.UnitAgrees.tickNext_counted (hm : measuring s.phase = true) (hpin : s.now.pinIn ≠ s.expectedLevel)
    (hcmd : s.unitCounted = true → s.engineCommand = n.measurement) (hcount : n.ptCount = 0) :
    (tickNext s).UnitAgrees := by
  have hb : s.unitBusy = true := ha.busy.trans hm
  have he : s.now.pinIn ≠ s.unitExp := ha.expected hm ▸ hpin
  rw [tickNext_run hr, hn, State.unitCommand_engine hport, State.unitTick_counted hb he,
    hcmd (State.unitCounted_counted hr hb he)]
  apply State.unitAgrees_withUnit_advance <;> cases h : measuring n.phase <;> simp [State.measurement, h, hcount]

omit hn

/-- At a Timeout unit and engine load the sentinel, and no command follows. -/
theorem State.UnitAgrees.tickNext_timedOut (hm : measuring s.phase = true) (hpin : s.now.pinIn = s.expectedLevel)
    (hc : s.ptCount = s.cfg.ceiling) (hn : phaseNext s.phase s = s.abort .timeout) : (tickNext s).UnitAgrees := by
  have hb : s.unitBusy = true := ha.busy.trans hm
  have he : s.now.pinIn = s.unitExp := hpin.trans (ha.expected hm).symm
  have hu : s.unitCount = s.cfg.ceiling := ha.count.trans hc
  rw [tickNext_run hr, hn, State.unitCommand_engine hport, State.unitTick_timedOut hb he hu,
    State.engineCommand_of_not_counted hm (State.unitCounted_timedOut hr hb he hu)]
  exact State.unitAgrees_withUnit_advance rfl (by simp [measuring]) rfl

omit hport

/-- At a matching sample below the ceiling unit and engine both add 1, whatever the command. -/
theorem State.UnitAgrees.tickNext_continues (hm : measuring s.phase = true) (hpin : s.now.pinIn = s.expectedLevel)
    (hc : s.ptCount ≠ s.cfg.ceiling) (hn : phaseNext s.phase s = { s with ptCount := s.ptCount + 1 }) :
    (tickNext s).UnitAgrees := by
  have he : s.now.pinIn = s.unitExp := hpin.trans (ha.expected hm).symm
  rw [tickNext_run hr, hn, State.unitTick_continues (ha.busy.trans hm) he (ha.count ▸ hc)]
  exact State.unitAgrees_withUnit_advance hm.symm ha.expected (congrArg (· + 1) ha.count)

end Tick

/-- With the engine driving the unit's port, a tick keeps the agreement. -/
theorem State.UnitAgrees.tickNext {s : State} (ha : s.UnitAgrees) (hport : s.unitPort = .engine) :
    (tickNext s).UnitAgrees := by
  cases hr : s.now.rst
  case true => rw [tickNext_rst hr]; exact ⟨rfl, by simp [measuring], rfl⟩
  case false =>
    obtain ⟨hp | hp, -, hn⟩ | ⟨hp | hp, -, hn⟩ | ⟨hp, -, hn⟩ | ⟨hp, -, hn⟩ | ⟨hp, hd, hn⟩ | ⟨hp, hd, hn⟩ |
      ⟨hp, hpin, hn⟩ | ⟨hp, hpin, hn⟩ | ⟨h79, hp, hpin, hn⟩ | ⟨hp, h79, hpin, hn⟩ | ⟨hm, hpin, hc, hn⟩ |
      ⟨hm, hpin, hc, hn⟩ | ⟨hp, hn⟩ | ⟨hp, -, hn⟩ | ⟨hp, -, hn⟩ := phaseNext_cases s
    -- `IDLE` and `DONE`, with a read accepted and without
    · exact ha.tickNext_quiet hport hr hn hp rfl nofun rfl rfl
    · exact ha.tickNext_quiet hport hr hn hp rfl nofun rfl rfl
    · exact ha.tickNext_quiet hport hr hn hp rfl nofun (hp ▸ rfl) rfl
    · exact ha.tickNext_quiet hport hr hn hp rfl nofun (hp ▸ rfl) rfl
    -- `REQ_LOW`
    · exact ha.tickNext_quiet hport hr hn hp rfl nofun rfl rfl
    · exact ha.tickNext_quiet hport hr hn hp rfl nofun (hp ▸ rfl) rfl
    -- `REQ_HIGH`: its last tick starts the unit
    · exact ha.tickNext_idle hport hr hn (hp ▸ rfl) ((State.engineCommand_reqHigh hp).trans (if_pos hd)) rfl
    · have hm : measuring s.phase = false := hp ▸ rfl
      exact ha.tickNext_idle hport hr hn hm (by simp [State.engineCommand_reqHigh hp, hd, State.measurement, hm])
        (by simp [hm])
    -- `ACK_LOW`, `ACK_HIGH` and `FRAME` at the end of a pulse
    · refine ha.tickNext_counted hport hr hn (hp ▸ rfl) ?_ (State.engineCommand_ackLow hp) rfl
      simpa [State.expectedLevel, hp] using hpin
    · refine ha.tickNext_counted hport hr hn (hp ▸ rfl) ?_ (State.engineCommand_ackHigh hp) rfl
      simpa [State.expectedLevel, hp] using hpin
    · refine ha.tickNext_counted hport hr hn (hp ▸ rfl) ?_ (fun hu => ?_) rfl
      · simpa [State.expectedLevel, hp] using hpin
      · simp [State.engineCommand_frame hp hu, h79, State.measurement, State.expectedLevel, hp, measuring]
    · refine ha.tickNext_counted hport hr hn (hp ▸ rfl) ?_ (fun hu => ?_) rfl
      · simpa [State.expectedLevel, hp] using hpin
      · simp [State.engineCommand_frame hp hu, h79, State.measurement, measuring]
    -- a Timeout, or a matching sample
    · exact ha.tickNext_timedOut hport hr hm hpin hc hn
    · exact ha.tickNext_continues hr hm hpin hc hn
    -- `DECODE` and `VERIFY`
    · exact ha.tickNext_quiet hport hr hn hp rfl nofun rfl rfl
    · exact ha.tickNext_quiet hport hr hn hp rfl nofun rfl rfl
    · exact ha.tickNext_quiet hport hr hn hp rfl nofun rfl rfl

/-- The agreement, read off phase by phase. -/
theorem State.UnitAgrees.table {t : State} (ha : t.UnitAgrees) :
    (t.unitBusy = true ↔ t.phase = .ackLow ∨ t.phase = .ackHigh ∨ t.phase = .frame) ∧
    (t.phase = .ackLow → t.unitExp = .low) ∧ (t.phase = .ackHigh → t.unitExp = .high) ∧
    (t.phase = .frame → t.unitExp = if t.measIdx.val % 2 = 0 then .low else .high) := by
  have hexp : ∀ p, t.phase = p → measuring p = true → t.unitExp = t.expectedLevel := fun p hp hm =>
    ha.expected (hp ▸ hm)
  refine ⟨ha.busy ▸ measuring_iff t.phase, fun hp => ?_, fun hp => ?_, fun hp => ?_⟩
  · simp [hexp _ hp rfl, State.expectedLevel, hp]
  · simp [hexp _ hp rfl, State.expectedLevel, hp]
  · simp [hexp _ hp rfl, State.expectedLevel, hp, levelOfIndex_eq]

/-- Settles O46: the agreement holds at reset, every tick keeps it, and it says what R31's table says. -/
theorem unitMirrorsTheEngine : Obligations.UnitMirrorsTheEngine := by
  refine ⟨rfl, rfl, rfl, State.unitAgrees_reset, fun s t hport ha hst => ?_⟩
  have ht : t.UnitAgrees := tickNext_of_step hst ▸ ha.tickNext hport
  exact ⟨ht, ht.table⟩

end Sys2Proof.Machine
end

section
/-! PROOFS. The command port (30_encoding.md R71): what its word decodes to, and what the two operations it names do. -/

namespace Sys2Proof.Machine

theorem accepting_iff (p : Phase) : accepting p = true ↔ p = .idle ∨ p = .done := by
  cases p <;> simp [accepting]

/-- The word at the command port is the encoding of `READ` or of `NOP`, so the round trip of the two gives its
meaning. -/
theorem State.decode_cmdWord (s : State) :
    decode .cmd s.cmdWord = if s.now.start = true then .ok .read else .ok .nop := by
  unfold State.cmdWord
  cases s.now.start
  case true => exact Laws.RoundTrip.read.2.2
  case false => exact Laws.RoundTrip.nop.2.2

theorem exec_read_of_accepting {s : State} (h : accepting s.phase = true) : exec .read s = .next s.acceptRead :=
  if_pos h

theorem exec_read_of_not_accepting {s : State} (h : ¬ accepting s.phase = true) : exec .read s = .next s :=
  if_neg h

theorem exec_nop (s : State) : exec .nop s = .next s := rfl

/-- Settles O8: the decoded word, `READ` by whether the phase is accepting, and `NOP`. -/
theorem readIsAcceptedInIdleAndDoneOnly : Obligations.ReadIsAcceptedInIdleAndDoneOnly := by
  refine ⟨State.decode_cmdWord, fun s hp => ?_, fun s hidle hdone => ?_, exec_nop⟩
  · exact exec_read_of_accepting ((accepting_iff s.phase).2 hp)
  · exact exec_read_of_not_accepting fun ha => ((accepting_iff s.phase).1 ha).elim hidle hdone

end Sys2Proof.Machine
end

section
/-! PROOFS. The pulse_timer's statements (40_pulse_timer.md R102, R104, R105, R107, R108): each is read off the
equations `unitTick_…` (what the unit's registers become) and `unitOutput_…` (what it delivers), of which the ones for
the idle unit, the measurement in progress and the reset tick stand here. -/

namespace Sys2Proof.Machine

/-! ### The two operations at the unit's port -/

theorem exec_measureLevel (level : Level) (s : State) :
    exec (.measureLevel level) s = .next (s.unitTick (some level)) := rfl

theorem exec_ptNop (ignored : Level) (s : State) : exec (.ptNop ignored) s = .next (s.unitTick none) := rfl

/-- Either operation of the unit's port is a tick of the unit with one command, the same in every state. -/
theorem exec_unitOp {i : Instr} {level : Level} (hi : i = .measureLevel level ∨ i = .ptNop level) :
    ∃ cmd, ∀ s, exec i s = .next (s.unitTick cmd) := by
  obtain rfl | rfl := hi
  · exact ⟨some level, exec_measureLevel level⟩
  · exact ⟨none, exec_ptNop level⟩

/-! ### What the unit delivers -/

section Delivery
variable {s : State}

theorem State.unitOutput_rst (hr : s.now.rst = true) : s.unitOutput = none := by
  simp [State.unitOutput, hr]

theorem State.unitOutput_idle (hb : s.unitBusy = false) : s.unitOutput = none := by
  simp [State.unitOutput, hb]

theorem State.unitOutput_continues (hb : s.unitBusy = true) (h : s.now.pinIn = s.unitExp)
    (hc : s.unitCount ≠ s.cfg.ceiling) : s.unitOutput = none := by
  simp [State.unitOutput, hb, s.pinSample_eq, h, ptStep_continues hc]

theorem State.ptDone_of_none (h : s.unitOutput = none) : s.ptDone = false := by
  simp [State.ptDone, h]

/-- The three output ports of the unit at the tick it delivers `Count(n)` (30_encoding.md R74). -/
theorem State.ports_of_count {n : Nat} (h : s.unitOutput = some (.count n)) :
    s.ptDone = true ∧ s.ptTimeout = false ∧ s.ptDur = n := by
  simp [State.ptDone, State.ptTimeout, State.ptDur, h]

/-- The three output ports of the unit at the tick it delivers `Timeout` (30_encoding.md R74). -/
theorem State.ports_of_timeout (h : s.unitOutput = some .timeout) :
    s.ptDone = true ∧ s.ptTimeout = true ∧ s.ptDur = s.cfg.ceiling + 1 := by
  simp [State.ptDone, State.ptTimeout, State.ptDur, h]

end Delivery

/-! ### The unit's registers beside the rest of the state -/

/-- Loading the unit's registers touches nothing of the block (10_state.md R20). -/
theorem State.withUnit_sameBlock (s : State) (b : Bool) (l : Level) (c : Nat) : (s.withUnit b l c).SameBlock s :=
  ⟨rfl, rfl, rfl, rfl, rfl, rfl, rfl, rfl, rfl, rfl⟩

/-- A unit that stays busy, or stays idle, is loaded with a level and a count only. -/
theorem State.withUnit_of_unitBusy {s : State} {b : Bool} (hb : s.unitBusy = b) (l : Level) (c : Nat) :
    s.withUnit b l c = { s with unitExp := l, unitCount := c } := by
  subst hb
  rfl

theorem State.unitTick_sameBlock (s : State) (cmd : Option Level) : (s.unitTick cmd).SameBlock s := by
  rw [s.unitTick_eq cmd]
  exact s.withUnit_sameBlock _ _ _

/-- The pin outputs are functions of the phase, a register of the block. -/
theorem State.SameBlock.pins {s t : State} (h : s.SameBlock t) : s.pinOe = t.pinOe ∧ s.pinOut = t.pinOut := by
  obtain ⟨-, hphase, -⟩ := h
  simp [State.pinOe, State.pinOut, hphase]

/-- A tick of the unit reads its registers, the configuration and the sample: where two states agree on those, the
idle unit takes the command in both, and the busy one has the same outcome of `pt_step` in both. -/
theorem State.SameUnit.unitTick {s s' : State} (hu : s.SameUnit s') (hcfg : s.cfg = s'.cfg)
    (hpin : s.now.pinIn = s'.now.pinIn) (cmd : Option Level) : (s.unitTick cmd).SameUnit (s'.unitTick cmd) := by
  obtain ⟨hbusy, hexp, hcount⟩ := hu
  cases hb : s.unitBusy
  case false =>
    rw [State.unitTick_idle hb, State.unitTick_idle (hbusy ▸ hb), hexp, hcount]
    exact ⟨rfl, rfl, rfl⟩
  case true =>
    have hb' : s'.unitBusy = true := hbusy ▸ hb
    obtain ⟨h, -⟩ | ⟨h, hc, -⟩ | ⟨h, hc, -⟩ := ptStep_cases s.cfg.ceiling s.unitCount s.unitExp s.now.pinIn
    · rw [State.unitTick_counted hb h, State.unitTick_counted hb' (hpin ▸ hexp ▸ h), hexp]
      exact ⟨rfl, rfl, rfl⟩
    · rw [State.unitTick_timedOut hb h hc, State.unitTick_timedOut hb' (hpin ▸ hexp ▸ h) (hcfg ▸ hcount ▸ hc), hexp,
        hcfg]
      exact ⟨rfl, rfl, rfl⟩
    · rw [State.unitTick_continues hb h hc, State.unitTick_continues hb' (hpin ▸ hexp ▸ h) (hcfg ▸ hcount ▸ hc), hexp,
        hcount]
      exact ⟨rfl, rfl, rfl⟩

/-! ### The statements -/

/-- Settles O12: one clause per outcome of `pt_step`, each from what the unit delivers and what its registers become
with a command and without. -/
theorem busyUnitCountsDeliversAndChains : Obligations.BusyUnitCountsDeliversAndChains := by
  intro s hb hr
  refine ⟨fun hpin => ?_, fun hpin hc => ?_, fun hpin hc => ?_⟩
  · obtain ⟨hdone, htimeout, hdur⟩ := State.ports_of_count (State.unitOutput_counted hr hb hpin)
    refine ⟨hdone, htimeout, hdur, fun level => ?_, fun ignored => ?_⟩
    · rw [exec_measureLevel, State.unitTick_counted hb hpin]
      exact congrArg _ (State.withUnit_of_unitBusy hb level 0)
    · rw [exec_ptNop, State.unitTick_counted hb hpin]
      rfl
  · obtain ⟨hdone, htimeout, hdur⟩ := State.ports_of_timeout (State.unitOutput_timedOut hr hb hpin hc)
    refine ⟨hdone, htimeout, hdur, fun level => ?_, fun ignored => ?_⟩
    · rw [exec_measureLevel, State.unitTick_timedOut hb hpin hc]
      exact congrArg _ (State.withUnit_of_unitBusy hb level 0)
    · rw [exec_ptNop, State.unitTick_timedOut hb hpin hc]
      rfl
  · have hnext : ∀ cmd, s.unitTick cmd = { s with unitCount := s.unitCount + 1 } := fun cmd =>
      (State.unitTick_continues hb hpin hc cmd).trans (State.withUnit_of_unitBusy hb s.unitExp _)
    refine ⟨State.ptDone_of_none (State.unitOutput_continues hb hpin hc), fun level => ?_, fun ignored => ?_⟩
    · rw [exec_measureLevel, hnext]
    · rw [exec_ptNop, hnext]

/-- Settles O6: at the reset tick nothing is delivered, and the tick loads the reset registers. -/
theorem resetTickLoadsTheUnitsResetState : Obligations.ResetTickLoadsTheUnitsResetState := by
  intro s hr
  refine ⟨State.ptDone_of_none (State.unitOutput_rst hr), tickNext s, step_eq s, ?_⟩
  rw [tickNext_rst hr]
  exact ⟨rfl, rfl, rfl⟩

/-- Settles O9: the equation of each outcome; `Continue` is the outcome below the ceiling only, hence its bound. -/
theorem ptStepHasItsThreeOutcomes : Obligations.PtStepHasItsThreeOutcomes := by
  intro ceiling c expected sample
  refine ⟨ptStep_ne, ?_, ?_, fun c' hle hc' => ?_⟩
  · rintro rfl rfl
    exact ptStep_timedOut
  · rintro rfl hne
    exact ptStep_continues hne
  · obtain ⟨-, h⟩ | ⟨-, -, h⟩ | ⟨-, hne, h⟩ := ptStep_cases ceiling c expected sample
    · cases h.symm.trans hc'
    · cases h.symm.trans hc'
    · have hsucc : c + 1 = c' := PtOutcome.continues.inj (h.symm.trans hc')
      omega

/-- Settles O11: the idle unit delivers nothing and is loaded by a command only. -/
theorem idleUnitTakesACommand : Obligations.IdleUnitTakesACommand := by
  intro s hb
  refine ⟨State.ptDone_of_none (State.unitOutput_idle hb), fun level => ?_, fun ignored => ?_⟩
  · rw [exec_measureLevel, State.unitTick_idle hb]
    rfl
  · rw [exec_ptNop, State.unitTick_idle hb]
    exact congrArg _ (State.withUnit_of_unitBusy hb s.unitExp s.unitCount)

/-- Settles O15: both operations are a tick of the unit, which leaves the block alone and reads the sample only. -/
theorem measuringNeverTouchesThePin : Obligations.MeasuringNeverTouchesThePin := by
  intro i level hi
  obtain ⟨cmd, hexec⟩ := exec_unitOp hi
  have next_eq : ∀ {s t : State}, exec i s = .next t → s.unitTick cmd = t := fun {s t} h =>
    Host.Outcome.next.inj ((hexec s).symm.trans h)
  refine ⟨fun s t ht => ?_, fun s s' t t' hu hcfg hpin ht ht' => ?_⟩
  · have hblock : t.SameBlock s := next_eq ht ▸ s.unitTick_sameBlock cmd
    exact ⟨hblock, hblock.pins⟩
  · rw [← next_eq ht, ← next_eq ht']
    exact hu.unitTick hcfg hpin cmd

end Sys2Proof.Machine
end

section
/-! PROOFS. The phase micro-operations, each by itself (41_protocol_engine.md R122 to R131). Every statement reads the
answer of `exec` off `phaseNext`; the arms that the three measuring phases share (a Timeout, a matching sample) stand
here once, for any of them. -/

namespace Sys2Proof.Machine

section Micro
variable {s : State} {p : Phase}

/-- The micro-operation of a phase answers the state that `phaseNext` gives. -/
theorem exec_of_phaseNext (p : Phase) {t : State} (h : phaseNext p s = t) : exec (microOp p) s = .next t :=
  h ▸ exec_microOp p s

/-- Outside the two request phases the line is released (10_state.md R30). -/
theorem State.pinOe_of_not_request (hp : s.phase = p) (h : p ≠ .reqLow ∧ p ≠ .reqHigh) : s.pinOe = false := by
  subst hp
  exact Bool.eq_false_iff.2 fun hoe => (s.pinOe_iff.1 hoe).elim h.1 h.2

theorem State.busy_of_accepting (h : accepting s.phase = true) : s.busy = false := by
  simp [State.busy, h]

/-! ### Serving the command port -/

theorem State.serveCommand_of_start (h : s.now.start = true) : s.serveCommand = s.acceptRead :=
  s.serveCommand_eq.trans (if_pos h)

theorem State.serveCommand_of_no_start (h : s.now.start = false) : s.serveCommand = s :=
  s.serveCommand_eq.trans (if_neg (Bool.eq_false_iff.1 h))

theorem exec_idle (s : State) : exec .idle s = .next s.serveCommand := rfl

theorem exec_done (s : State) : exec .done s = .next s.serveCommand := rfl

/-! ### Measuring -/

/-- A measuring micro-operation at a matching sample with the count at the ceiling: the read is aborted (R128). The
phase `p` need not be the one `s` is in. -/
theorem phaseNext_timedOut (hm : measuring p = true) (hpin : s.now.pinIn = { s with phase := p }.expectedLevel)
    (hc : s.ptCount = s.cfg.ceiling) : phaseNext p s = s.abort .timeout := by
  obtain rfl | rfl | rfl := (measuring_iff p).1 hm
  · exact (phaseNext_ackLow s).trans ((if_neg (not_not.2 hpin)).trans (if_pos hc))
  · exact (phaseNext_ackHigh s).trans ((if_neg (not_not.2 hpin)).trans (if_pos hc))
  · exact (phaseNext_frame s).trans ((if_neg (not_not.2 hpin)).trans (if_pos hc))

/-- A measuring micro-operation at a matching sample below the ceiling: the sample is counted. -/
theorem phaseNext_continues (hm : measuring p = true) (hpin : s.now.pinIn = { s with phase := p }.expectedLevel)
    (hc : s.ptCount ≠ s.cfg.ceiling) : phaseNext p s = { s with ptCount := s.ptCount + 1 } := by
  obtain rfl | rfl | rfl := (measuring_iff p).1 hm
  · exact (phaseNext_ackLow s).trans ((if_neg (not_not.2 hpin)).trans (if_neg hc))
  · exact (phaseNext_ackHigh s).trans ((if_neg (not_not.2 hpin)).trans (if_neg hc))
  · exact (phaseNext_frame s).trans ((if_neg (not_not.2 hpin)).trans (if_neg hc))

theorem phaseNext_ackLow_counted (hpin : s.now.pinIn = .high) :
    phaseNext .ackLow s = { s with ptCount := 0, phase := .ackHigh } := by
  rw [phaseNext_ackLow, s.pinSample_eq, hpin, if_pos nofun]

theorem phaseNext_ackHigh_counted (hpin : s.now.pinIn = .low) : phaseNext .ackHigh s = s.responseReady := by
  rw [phaseNext_ackHigh, s.pinSample_eq, hpin, if_pos nofun]

theorem phaseNext_frame_counted (hpin : s.now.pinIn ≠ levelOfIndex s.measIdx) (h : s.measIdx.val < 79) :
    phaseNext .frame s =
      { s.storeDuration s.ptCount with ptCount := 0, measIdx := ⟨s.measIdx.val + 1, by omega⟩ } := by
  rw [phaseNext_frame, s.pinSample_eq, if_pos hpin, nextIndex_of_lt h]

theorem phaseNext_frame_counted_last (hpin : s.now.pinIn ≠ levelOfIndex s.measIdx) (h : s.measIdx.val = 79) :
    phaseNext .frame s = { s.storeDuration s.ptCount with ptCount := 0, phase := .decode } := by
  rw [phaseNext_frame, s.pinSample_eq, if_pos hpin, nextIndex_of_last (by omega)]

/-! ### After the handshake -/

/-- From the handshake to the end of the read, the micro-operation ends the read or keeps ResponseReady on the ports. -/
theorem phaseNext_keeps_responseReady (hp : s.phase = .frame ∨ s.phase = .decode ∨ s.phase = .verify)
    (hres : s.result = .responseReady) : (phaseNext s.phase s).phase = .done ∨
      ((phaseNext s.phase s).rvalid = true ∧ (phaseNext s.phase s).result = .responseReady) := by
  obtain hp | hp | hp := hp
  · rw [hp, phaseNext_frame]
    split
    · split
      · exact .inr ⟨rfl, hres⟩
      · exact .inr ⟨(State.rvalid_iff _).2 (.inl hp), hres⟩
    · split
      · exact .inl rfl
      · exact .inr ⟨(State.rvalid_iff _).2 (.inl hp), hres⟩
  · rw [hp, phaseNext_decode]
    exact .inr ⟨rfl, hres⟩
  · rw [hp, phaseNext_verify]
    split <;> exact .inl rfl

/-- Before the end of the read no Measurement is shown (10_state.md R34, items 6 and 8). -/
theorem State.Inv.no_measurement (hi : s.Inv) (hp : s.phase ≠ .done) :
    s.measValid = false ∧ s.meas = #v[0, 0, 0, 0] := by
  have hv : s.measValid = false := Bool.eq_false_iff.2 fun h => hp (hi.valid.1 h).1
  exact ⟨hv, hi.measurement.2 hv⟩

/-- Bit `7 − j` of byte `k` of a decoded frame is the comparison of the pair `8*k + j` (R129). -/
theorem decodeFrame_getLsbD (dur : Vector Nat 80) (k : Fin 5) (j : Fin 8) :
    (decodeFrame dur)[k].getLsbD (7 - j.val) =
      decide (dur[2 * (8 * k.val + j.val)]'(by omega) < dur[2 * (8 * k.val + j.val) + 1]'(by omega)) := by
  rw [decodeFrame_getElem, frameByte, packByte_getLsbD]
  rfl

end Micro

/-! ### Holding a request for its ticks -/

theorem phaseNext_reqLow_holds {s : State} (h : s.delayCnt ≠ s.cfg.reqLowTicks - 1) :
    phaseNext .reqLow s = { s with delayCnt := s.delayCnt + 1 } :=
  (phaseNext_reqLow s).trans (if_neg h)

theorem phaseNext_reqLow_ends {s : State} (h : s.delayCnt = s.cfg.reqLowTicks - 1) :
    phaseNext .reqLow s = { s with phase := .reqHigh, delayCnt := 0 } :=
  (phaseNext_reqLow s).trans (if_pos h)

theorem phaseNext_reqHigh_holds {s : State} (h : s.delayCnt ≠ s.cfg.reqHighTicks - 1) :
    phaseNext .reqHigh s = { s with delayCnt := s.delayCnt + 1 } :=
  (phaseNext_reqHigh s).trans (if_neg h)

theorem phaseNext_reqHigh_ends {s : State} (h : s.delayCnt = s.cfg.reqHighTicks - 1) :
    phaseNext .reqHigh s = { s with phase := .ackLow, delayCnt := 0, ptCount := 0 } :=
  (phaseNext_reqHigh s).trans (if_pos h)

section Hold
variable {p : Phase} {n : Nat} {s : State}
  (hcount : ∀ t : State, t.cfg = s.cfg → t.delayCnt ≠ n - 1 →
    phaseNext p t = { t with delayCnt := t.delayCnt + 1 })
  (hp : s.phase = p) (hd : s.delayCnt = 0) (hr : s.NoReset n)
include hcount hp hd hr

/-- A phase whose micro-operation counts `delay_cnt` up to `n - 1`, entered at 0, is held for `n` states. -/
theorem ticks_of_hold {k : Nat} (hk : k < n) : (ticks k s).phase = p ∧ (ticks k s).delayCnt = k := by
  induction k with
  | zero => exact ⟨hp, hd⟩
  | succ k ih =>
    obtain ⟨ihp, ihd⟩ := ih (by omega)
    have hrst : (ticks k s).now.rst = false := (noReset_ticks (hr.mono hk.le)).now one_pos
    obtain ⟨-, hphase, hdelay, -⟩ := tickNext_sameBlock hrst
    rw [ihp, hcount _ (ticks_cfg k s) (by omega)] at hphase hdelay
    rw [ticks_succ']
    exact ⟨hphase.trans ihp, hdelay.trans (congrArg (· + 1) ihd)⟩

/-- The `n`th tick of such a phase leaves the block as the micro-operation does at `delay_cnt = n - 1`. -/
theorem ticks_end_of_hold (hn : 1 ≤ n) :
    ∃ t : State, t.cfg = s.cfg ∧ t.delayCnt = n - 1 ∧ (ticks n s).SameBlock (phaseNext p t) := by
  have hlt : n - 1 < n := by omega
  obtain ⟨hphase, hdelay⟩ := ticks_of_hold hcount hp hd hr hlt
  have hrst : (ticks (n - 1) s).now.rst = false := (noReset_ticks (hr.mono (by omega))).now one_pos
  have hlast := tickNext_sameBlock hrst
  rw [hphase, ← ticks_succ', Nat.sub_add_cancel hn] at hlast
  exact ⟨_, ticks_cfg _ s, hdelay, hlast⟩

end Hold

/-! ### The statements -/

/-- Settles O20: the tick rule, and the hold by induction on its ticks. -/
theorem requestLowHoldsItsTicks : Obligations.RequestLowHoldsItsTicks := by
  refine ⟨fun s h => exec_of_phaseNext .reqLow (phaseNext_reqLow_ends h),
    fun s h => exec_of_phaseNext .reqLow (phaseNext_reqLow_holds h),
    fun s hp => ⟨s.pinOe_iff.2 (.inl hp), s.pinOut_eq_low_iff.2 hp⟩, fun s hn hp hd hr => ?_⟩
  have hcount : ∀ t : State, t.cfg = s.cfg → t.delayCnt ≠ s.cfg.reqLowTicks - 1 →
      phaseNext .reqLow t = { t with delayCnt := t.delayCnt + 1 } := fun t hcfg h =>
    phaseNext_reqLow_holds (hcfg ▸ h)
  refine ⟨fun k hk => ⟨_, after_iff.2 rfl, ticks_of_hold hcount hp hd hr hk⟩, _, after_iff.2 rfl, ?_⟩
  obtain ⟨t, hcfg, hlast, hblock⟩ := ticks_end_of_hold hcount hp hd hr hn
  rw [phaseNext_reqLow_ends (hcfg ▸ hlast)] at hblock
  obtain ⟨-, hphase, hdelay, -⟩ := hblock
  exact ⟨hphase, hdelay⟩

/-- Settles O21: the tick rule, the hold by induction on its ticks, and the release with `ACK_LOW`. -/
theorem requestHighHoldsItsTicks : Obligations.RequestHighHoldsItsTicks := by
  refine ⟨fun s h => exec_of_phaseNext .reqHigh (phaseNext_reqHigh_ends h),
    fun s h => exec_of_phaseNext .reqHigh (phaseNext_reqHigh_holds h),
    fun s hp => ⟨s.pinOe_iff.2 (.inr hp), by simp [State.pinOut, hp]⟩, fun s hn hp hd hr => ?_⟩
  have hcount : ∀ t : State, t.cfg = s.cfg → t.delayCnt ≠ s.cfg.reqHighTicks - 1 →
      phaseNext .reqHigh t = { t with delayCnt := t.delayCnt + 1 } := fun t hcfg h =>
    phaseNext_reqHigh_holds (hcfg ▸ h)
  refine ⟨fun k hk => ⟨_, after_iff.2 rfl, ticks_of_hold hcount hp hd hr hk⟩, _, after_iff.2 rfl, ?_⟩
  obtain ⟨t, hcfg, hlast, hblock⟩ := ticks_end_of_hold hcount hp hd hr hn
  rw [phaseNext_reqHigh_ends (hcfg ▸ hlast)] at hblock
  obtain ⟨-, hphase, hdelay, hptCount, -⟩ := hblock
  have hack : (ticks s.cfg.reqHighTicks s).phase = .ackLow := hphase
  exact ⟨hack, hdelay, hptCount, State.pinOe_of_not_request hack (by decide)⟩

/-- Settles O23: the arms of `pt_step`, and that the phases up to `VERIFY` keep ResponseReady or end the read. -/
theorem ackHighEndsTheHandshake : Obligations.AckHighEndsTheHandshake := by
  have hready : ∀ s : State, s.now.pinIn = .low → exec .ackHigh s = .next s.responseReady := fun s hpin =>
    exec_of_phaseNext .ackHigh (phaseNext_ackHigh_counted hpin)
  refine ⟨hready, fun s hpin hc => exec_of_phaseNext .ackHigh (phaseNext_continues rfl hpin hc),
    fun s hpin hc => exec_of_phaseNext .ackHigh (phaseNext_timedOut rfl hpin hc),
    fun s hp => State.pinOe_of_not_request hp (by decide), fun s t hpin ht => ?_, fun s t hrst hp hres ht => ?_⟩
  · cases (hready s hpin).symm.trans ht
    exact ⟨rfl, rfl⟩
  · obtain ⟨-, hphase, -, -, -, -, -, -, -, hresult⟩ := tickNext_sameBlock hrst
    have hkeep := phaseNext_keeps_responseReady hp hres
    rwa [State.rvalid_iff, ← hphase, ← hresult, ← State.rvalid_iff, ← tickNext_of_step ht] at hkeep

/-- Settles O25: the shared Timeout arm; no Measurement is shown in a measuring phase, and the abort writes none. -/
theorem timeoutAbortsTheRead : Obligations.TimeoutAbortsTheRead := by
  intro s hm hpin hc
  have habort : exec (microOp s.phase) s = .next (s.abort .timeout) :=
    exec_of_phaseNext s.phase (phaseNext_timedOut hm hpin hc)
  refine ⟨habort, fun t hi ht => ?_⟩
  cases habort.symm.trans ht
  have hp : s.phase ≠ .done := fun hp => by simp [hp, measuring] at hm
  obtain ⟨hvalid, hmeas⟩ := hi.no_measurement hp
  exact ⟨hvalid, hmeas, rfl⟩

/-- Settles O26: the state after `DECODE` holds the decoded frame, and each of its bits is one comparison. -/
theorem decodePacksTheFortyBits : Obligations.DecodePacksTheFortyBits := by
  intro s
  exact ⟨_, exec_of_phaseNext .decode (phaseNext_decode s), rfl, decodeFrame_getLsbD s.dur,
    fun hp => State.pinOe_of_not_request hp (by decide)⟩

/-- Settles O19: the command port is served, with a command and without. -/
theorem idleWaitsForRead : Obligations.IdleWaitsForRead := by
  have hstart : ∀ s : State, s.now.start = true → exec .idle s = .next s.acceptRead := fun s h => by
    rw [exec_idle, State.serveCommand_of_start h]
  refine ⟨hstart, fun s h => ?_, fun s t h ht => ?_, fun s hp => ?_⟩
  · rw [exec_idle, State.serveCommand_of_no_start h]
  · cases (hstart s h).symm.trans ht
    exact ⟨rfl, rfl⟩
  · exact ⟨State.pinOe_of_not_request hp (by decide), State.busy_of_accepting ((accepting_iff _).2 (.inl hp))⟩

/-- Settles O22: the three arms of `pt_step` at LOW. -/
theorem ackLowMeasuresTheAcknowledgement : Obligations.AckLowMeasuresTheAcknowledgement := fun _ =>
  ⟨fun hpin => exec_of_phaseNext .ackLow (phaseNext_ackLow_counted hpin),
    fun hpin hc => exec_of_phaseNext .ackLow (phaseNext_continues rfl hpin hc),
    fun hpin hc => exec_of_phaseNext .ackLow (phaseNext_timedOut rfl hpin hc),
    fun hp => State.pinOe_of_not_request hp (by decide)⟩

/-- Settles O24: the three arms of `pt_step` at the level of the index, the first for a next index and for the last. -/
theorem frameMeasuresTheDataDurations : Obligations.FrameMeasuresTheDataDurations := by
  intro s
  dsimp only
  rw [← levelOfIndex_eq]
  exact ⟨fun hpin h => exec_of_phaseNext .frame (phaseNext_frame_counted hpin h),
    fun hpin h => exec_of_phaseNext .frame (phaseNext_frame_counted_last hpin h),
    fun hpin hc => exec_of_phaseNext .frame (phaseNext_continues rfl hpin hc),
    fun hpin hc => exec_of_phaseNext .frame (phaseNext_timedOut rfl hpin hc),
    fun hp => State.pinOe_of_not_request hp (by decide)⟩

/-- Settles O27: the checksum test as arithmetic decides between publishing and failing. -/
theorem verifyTestsTheChecksum : Obligations.VerifyTestsTheChecksum := by
  intro s
  refine ⟨fun hsum => exec_of_phaseNext .verify ?_, fun hsum => exec_of_phaseNext .verify ?_,
    fun hp => State.pinOe_of_not_request hp (by decide)⟩
  · exact (phaseNext_verify s).trans (if_pos ((checksumOk_iff s.frame).2 hsum))
  · exact (phaseNext_verify s).trans (if_neg (mt (checksumOk_iff s.frame).1 hsum))

/-- Settles O28: the command port is served as in `IDLE`. -/
theorem doneHoldsTheResults : Obligations.DoneHoldsTheResults := by
  have hidle : ∀ s : State, exec .done s = exec .idle s := fun s => (exec_done s).trans (exec_idle s).symm
  obtain ⟨hstart, hno_start, -, -⟩ := idleWaitsForRead
  refine ⟨fun s h => (hidle s).trans (hstart s h), fun s h => (hidle s).trans (hno_start s h), hidle,
    fun s hp => ?_⟩
  exact ⟨s.doneOut_iff.2 hp, State.busy_of_accepting ((accepting_iff _).2 (.inr hp)),
    State.pinOe_of_not_request hp (by decide)⟩

end Sys2Proof.Machine
end

section
/-! PROOFS. Reset and idling (70_reset_and_hazards.md R180, R181): a whole tick in a phase that serves the command port,
and that a tick without a reset never leads to `IDLE` from another phase. -/

namespace Sys2Proof.Machine

section Tick
variable {s : State}

theorem phaseNext_of_accepting (h : accepting s.phase = true) : phaseNext s.phase s = s.serveCommand := by
  obtain hp | hp := (accepting_iff s.phase).1 h
  · rw [hp, phaseNext_idle, s.serveCommand_eq]
  · rw [hp, phaseNext_done, s.serveCommand_eq]

/-- The tick that accepts a read (41_protocol_engine.md R122, R131). -/
theorem State.Accepts.tickNext_sameBlock (ha : s.Accepts) : (tickNext s).SameBlock s.acceptRead := by
  obtain ⟨hacc, hstart, hrst⟩ := ha
  have hblock := Machine.tickNext_sameBlock hrst
  rwa [phaseNext_of_accepting hacc, State.serveCommand_of_start hstart] at hblock

/-- With no command the block stays as it is, in `IDLE` and in `DONE`. -/
theorem tickNext_sameBlock_of_no_start (hacc : accepting s.phase = true) (hrst : s.now.rst = false)
    (hstart : s.now.start = false) : (tickNext s).SameBlock s := by
  have hblock := tickNext_sameBlock hrst
  rwa [phaseNext_of_accepting hacc, State.serveCommand_of_no_start hstart] at hblock

/-- Each thing a micro-operation can do keeps the phase or moves to a phase other than `IDLE`. -/
theorem phaseNext_phase_ne_idle (hp : s.phase ≠ .idle) : (phaseNext s.phase s).phase ≠ .idle := by
  obtain ⟨-, -, hn⟩ | ⟨-, -, hn⟩ | ⟨-, -, hn⟩ | ⟨-, -, hn⟩ | ⟨-, -, hn⟩ | ⟨-, -, hn⟩ | ⟨-, -, hn⟩ | ⟨-, -, hn⟩ |
    ⟨_, -, -, hn⟩ | ⟨-, -, -, hn⟩ | ⟨-, -, -, hn⟩ | ⟨-, -, -, hn⟩ | ⟨-, hn⟩ | ⟨-, -, hn⟩ | ⟨-, -, hn⟩ :=
    phaseNext_cases s <;> simp [hn, hp]

theorem tickNext_phase_ne_idle (hrst : s.now.rst = false) (hp : s.phase ≠ .idle) : (tickNext s).phase ≠ .idle := by
  obtain ⟨-, hphase, -⟩ := tickNext_sameBlock hrst
  exact hphase ▸ phaseNext_phase_ne_idle hp

end Tick

/-- Settles O5: the reset registers, the read accepted from them, and that only a reset leads back to `IDLE`. -/
theorem resetTickLoadsTheResetState : Obligations.ResetTickLoadsTheResetState := by
  refine ⟨fun s hrst => ⟨tickNext s, step_eq s, ?_⟩, fun s t hrst hp ht => ?_⟩
  · rw [tickNext_rst hrst]
    refine ⟨rfl, rfl, rfl, rfl, rfl, rfl, rfl, rfl, rfl, fun hrst' hstart => ⟨_, step_eq _, ?_⟩⟩
    have haccepts : s.resetRegisters.advance.Accepts := ⟨rfl, hstart, hrst'⟩
    obtain ⟨-, hphase, hdelay, -⟩ := haccepts.tickNext_sameBlock
    exact ⟨hphase, hdelay⟩
  · exact tickNext_of_step ht ▸ tickNext_phase_ne_idle hrst hp

/-- Settles O4: the values are those of the definition, and in `IDLE` a tick with no command changes no register. -/
theorem resetStateHasItsStatedValues : Obligations.ResetStateHasItsStatedValues := by
  refine ⟨rfl, rfl, rfl, rfl, rfl, rfl, rfl, rfl, rfl, rfl, rfl, rfl, rfl, fun s hp hrst hstart => ?_⟩
  have hacc : accepting s.phase = true := (accepting_iff s.phase).2 (.inl hp)
  exact ⟨tickNext s, step_eq s, tickNext_sameBlock_of_no_start hacc hrst hstart⟩

end Sys2Proof.Machine
end

section
/-! PROOFS. The decoder against the encoder (30_encoding.md sections 1, 4 and 6): every operation's word decodes to it,
and a word that fits its port is the word of the operation it decodes to. -/

namespace Sys2Proof

/-- The round trip from the operation's side, for every operation. -/
theorem decode_encode (i : Instr) : decode (encode i).1 (encode i).2 = .ok i := by
  obtain ⟨-, -, h⟩ : Laws.RoundTrip.Statement i := by
    cases i with
    | read => exact Laws.RoundTrip.read
    | nop => exact Laws.RoundTrip.nop
    | measureLevel l => exact Laws.RoundTrip.measureLevel l
    | ptNop x => exact Laws.RoundTrip.ptNop x
    | idle => exact Laws.RoundTrip.idle
    | reqLow => exact Laws.RoundTrip.reqLow
    | reqHigh => exact Laws.RoundTrip.reqHigh
    | ackLow => exact Laws.RoundTrip.ackLow
    | ackHigh => exact Laws.RoundTrip.ackHigh
    | frame => exact Laws.RoundTrip.frame
    | decode => exact Laws.RoundTrip.decode
    | verify => exact Laws.RoundTrip.verify
    | done => exact Laws.RoundTrip.done
    | resSuccess => exact Laws.RoundTrip.resSuccess
    | resResponseReady => exact Laws.RoundTrip.resResponseReady
    | resChecksumMismatch => exact Laws.RoundTrip.resChecksumMismatch
    | resTimeout => exact Laws.RoundTrip.resTimeout
  exact h

theorem decode_of_wide {p : Port} {w : Nat} (h : 2 ^ p.width ≤ w) : decode p w = .error (.wordTooWide p w) :=
  if_neg h.not_gt

theorem decode_phase_of_lt {w : Nat} (h : w < 16) : decode .phase w = decodePhase w := if_pos h

/-- The codes above 8 are those of no phase. -/
theorem decodePhase_of_reserved {w : Nat} (h : 9 ≤ w) : decodePhase w = .error (.reservedPhase w) := by
  obtain ⟨n, rfl⟩ := Nat.exists_eq_add_of_le' h
  rfl

/-- A word that fits its port is the word of an operation on it, or a reserved phase code. -/
theorem exists_encode_of_lt {p : Port} {w : Nat} (h : w < 2 ^ p.width) :
    (∃ i, encode i = (p, w)) ∨ (p = .phase ∧ 9 ≤ w) := by
  cases p <;> simp only [Port.width, Nat.reducePow] at h <;> interval_cases w
  · exact .inl ⟨.nop, rfl⟩
  · exact .inl ⟨.read, rfl⟩
  · exact .inl ⟨.ptNop .low, rfl⟩
  · exact .inl ⟨.ptNop .high, rfl⟩
  · exact .inl ⟨.measureLevel .low, rfl⟩
  · exact .inl ⟨.measureLevel .high, rfl⟩
  · exact .inl ⟨.idle, rfl⟩
  · exact .inl ⟨.reqLow, rfl⟩
  · exact .inl ⟨.reqHigh, rfl⟩
  · exact .inl ⟨.ackLow, rfl⟩
  · exact .inl ⟨.ackHigh, rfl⟩
  · exact .inl ⟨.frame, rfl⟩
  · exact .inl ⟨.decode, rfl⟩
  · exact .inl ⟨.verify, rfl⟩
  · exact .inl ⟨.done, rfl⟩
  iterate 7 exact .inr ⟨rfl, by decide⟩
  · exact .inl ⟨.resSuccess, rfl⟩
  · exact .inl ⟨.resResponseReady, rfl⟩
  · exact .inl ⟨.resChecksumMismatch, rfl⟩
  · exact .inl ⟨.resTimeout, rfl⟩

/-- Everything the decoder can answer: the operation of the word, or one of the two refusals. -/
theorem decode_cases (p : Port) (w : Nat) :
    (∃ i, encode i = (p, w) ∧ decode p w = .ok i) ∨
    (2 ^ p.width ≤ w ∧ decode p w = .error (.wordTooWide p w)) ∨
    (p = .phase ∧ 9 ≤ w ∧ w ≤ 15 ∧ decode p w = .error (.reservedPhase w)) := by
  obtain hw | hw := Nat.lt_or_ge w (2 ^ p.width)
  · obtain ⟨i, hi⟩ | ⟨rfl, h9⟩ := exists_encode_of_lt hw
    · exact .inl ⟨i, hi, by simpa only [hi] using decode_encode i⟩
    · have hw16 : w < 16 := hw
      exact .inr (.inr ⟨rfl, h9, by omega, (decode_phase_of_lt hw16).trans (decodePhase_of_reserved h9)⟩)
  · exact .inr (.inl ⟨hw, decode_of_wide hw⟩)

/-- Settles O2: an operation's word decodes to it, and a decoded word is that of the operation by `decode_cases`. -/
theorem decodeAndEncodeAgree : Obligations.DecodeAndEncodeAgree := by
  intro p w i
  refine ⟨fun h => ?_, fun h => by simpa only [h] using decode_encode i⟩
  obtain ⟨j, hj, e⟩ | ⟨-, e⟩ | ⟨-, -, -, e⟩ := decode_cases p w
  · rwa [← Except.ok.inj (e.symm.trans h)]
  · cases e.symm.trans h
  · cases e.symm.trans h

/-- Settles O3: the two refusals of `decode_cases`, which exclude an answer and each other. -/
theorem reservedWordsAreRefusedByName : Obligations.ReservedWordsAreRefusedByName := by
  intro p w e
  constructor
  · intro h
    obtain ⟨i, -, hd⟩ | ⟨hw, hd⟩ | ⟨hp, h9, h15, hd⟩ := decode_cases p w
    · cases hd.symm.trans h
    · exact .inl ⟨hw, (Except.error.inj (hd.symm.trans h)).symm⟩
    · exact .inr ⟨hp, h9, h15, (Except.error.inj (hd.symm.trans h)).symm⟩
  · rintro (⟨hw, rfl⟩ | ⟨rfl, h9, h15, rfl⟩)
    · exact decode_of_wide hw
    · exact (decode_phase_of_lt (by omega)).trans (decodePhase_of_reserved h9)

/-- Settles O1: each word is the encoding of its row's operation. -/
theorem tableWordsDecodeToTheirRows : Obligations.TableWordsDecodeToTheirRows :=
  ⟨decode_encode .read, decode_encode .nop, decode_encode (.measureLevel .low), decode_encode (.measureLevel .high),
    decode_encode (.ptNop .low), decode_encode (.ptNop .high), decode_encode .idle, decode_encode .reqLow,
    decode_encode .reqHigh, decode_encode .ackLow, decode_encode .ackHigh, decode_encode .frame,
    decode_encode .decode, decode_encode .verify, decode_encode .done, decode_encode .resSuccess,
    decode_encode .resResponseReady, decode_encode .resChecksumMismatch, decode_encode .resTimeout⟩

end Sys2Proof
end

section
/-! PROOFS. The invariants of the state (10_state.md R34). A read passes three stages: up to the handshake's end nothing
is reported, from there to `VERIFY` ResponseReady is, and in `DONE` the result. What the invariants come to in each
stage is said once (`inv_of_…`), and every tick is then a move within a stage or to the next. -/

namespace Sys2Proof.Machine

section Stages
variable {s : State}

theorem State.delayInRange_of_zero (h : s.delayCnt = 0) : s.DelayInRange := by
  simp [State.DelayInRange, h]

theorem State.countInRange_of_le (h : s.ptCount ≤ s.cfg.ceiling) : s.CountInRange :=
  ⟨fun _ => h, h.trans (Nat.le_succ _)⟩

theorem State.countInRange_of_not_measuring (hm : measuring s.phase = false) (h : s.ptCount ≤ s.cfg.ceiling + 1) :
    s.CountInRange := ⟨by simp [hm], h⟩

theorem State.driveSound (s : State) : s.DriveSound := s.pinOe_iff.1

/-- The stage of nothing to report: `IDLE`, and a read up to the end of its handshake. -/
theorem State.inv_of_early (hp : s.phase = .idle ∨ s.phase = .reqLow ∨ s.phase = .reqHigh ∨ s.phase = .ackLow ∨
      s.phase = .ackHigh) (hdelay : s.DelayInRange) (hcount : s.CountInRange) (hres : s.result = .success)
    (hmeas : s.measValid = false ∧ s.meas = #v[0, 0, 0, 0]) : s.Inv := by
  obtain ⟨hvalid, hzero⟩ := hmeas
  refine ⟨hdelay, hcount, ?_, ?_, by simp [State.MeasurementSound, hvalid, hzero], ?_, s.driveSound⟩ <;>
    obtain hp | hp | hp | hp | hp := hp <;>
    simp [State.DurationsInRange, State.ValidIffSuccess, State.ResultSound, hp, hvalid, hres]

/-- The stage of ResponseReady: the data measurements and their evaluation. -/
theorem State.inv_of_data (hp : s.phase = .frame ∨ s.phase = .decode ∨ s.phase = .verify) (hdelay : s.delayCnt = 0)
    (hcount : s.CountInRange) (hdur : s.DurationsInRange) (hres : s.result = .responseReady)
    (hmeas : s.measValid = false ∧ s.meas = #v[0, 0, 0, 0]) : s.Inv := by
  obtain ⟨hvalid, hzero⟩ := hmeas
  refine ⟨s.delayInRange_of_zero hdelay, hcount, hdur, ?_, by simp [State.MeasurementSound, hvalid, hzero], ?_,
    s.driveSound⟩ <;>
    obtain hp | hp | hp := hp <;> simp [State.ValidIffSuccess, State.ResultSound, hp, hvalid, hres]

/-- The end of a failed read. -/
theorem State.inv_of_failed (hp : s.phase = .done) (hdelay : s.delayCnt = 0) (hcount : s.ptCount ≤ s.cfg.ceiling + 1)
    (hres : s.result = .timeout ∨ s.result = .checksumMismatch)
    (hmeas : s.measValid = false ∧ s.meas = #v[0, 0, 0, 0]) : s.Inv := by
  obtain ⟨hvalid, hzero⟩ := hmeas
  refine ⟨s.delayInRange_of_zero hdelay, s.countInRange_of_not_measuring (hp ▸ rfl) hcount, ?_, ?_,
    by simp [State.MeasurementSound, hvalid, hzero], ?_, s.driveSound⟩ <;>
    obtain hres | hres := hres <;>
    simp [State.DurationsInRange, State.ValidIffSuccess, State.ResultSound, hp, hvalid, hres]

/-- The end of a successful read, at a frame that passes the checksum test. -/
theorem State.inv_publish (hdelay : s.delayCnt = 0) (hcount : s.ptCount ≤ s.cfg.ceiling + 1)
    (hok : checksumOk s.frame = true) : s.publish.Inv :=
  ⟨State.delayInRange_of_zero hdelay, State.countInRange_of_not_measuring rfl hcount,
    by simp [State.DurationsInRange], by simp [State.ValidIffSuccess],
    ⟨fun _ => ⟨rfl, rfl, rfl, rfl, (checksumOk_iff s.frame).1 hok⟩, nofun⟩, by simp [State.ResultSound],
    State.driveSound _⟩

/-! What the invariants say of the registers in a given phase. -/

theorem State.Inv.delay_eq_zero (hi : s.Inv) {p : Phase} (hp : s.phase = p)
    (h : p ≠ .reqLow ∧ p ≠ .reqHigh := by decide) : s.delayCnt = 0 :=
  hi.delay.2.2 (hp ▸ h.1) (hp ▸ h.2)

theorem State.Inv.result_early (hi : s.Inv) (hp : s.phase = .idle ∨ s.phase = .reqLow ∨ s.phase = .reqHigh ∨
    s.phase = .ackLow ∨ s.phase = .ackHigh) : s.result = .success := hi.result.2.2 hp

theorem State.Inv.result_data (hi : s.Inv) (hp : s.phase = .frame ∨ s.phase = .decode ∨ s.phase = .verify) :
    s.result = .responseReady := hi.result.1.2 hp

theorem State.Inv.ptCount_le (hi : s.Inv) (hm : measuring s.phase = true) : s.ptCount ≤ s.cfg.ceiling := hi.count.1 hm

theorem State.Inv.delay_of_measuring (hi : s.Inv) (hm : measuring s.phase = true) : s.delayCnt = 0 := by
  obtain hp | hp | hp := (measuring_iff s.phase).1 hm <;> exact hi.delay_eq_zero hp

theorem State.Inv.no_measurement_of_measuring (hi : s.Inv) (hm : measuring s.phase = true) :
    s.measValid = false ∧ s.meas = #v[0, 0, 0, 0] := by
  apply hi.no_measurement
  rintro h
  simp [h, measuring] at hm

end Stages

/-! ### What a step does to them -/

section Step
variable {s : State}

theorem State.inv_resetRegisters (s : State) : s.resetRegisters.Inv :=
  State.inv_of_early (.inl rfl) (State.delayInRange_of_zero rfl) (State.countInRange_of_le (Nat.zero_le _)) rfl
    ⟨rfl, rfl⟩

theorem State.Inv.acceptRead (hi : s.Inv) : s.acceptRead.Inv :=
  State.inv_of_early (.inr (.inl rfl)) (State.delayInRange_of_zero rfl)
    (State.countInRange_of_not_measuring rfl hi.count.2) rfl ⟨rfl, rfl⟩

/-- Storing the count of the measurement `meas_idx` brings the entries up to it in range. -/
theorem State.Inv.storeDuration_le (hi : s.Inv) (hp : s.phase = .frame) {i : Fin 80} (h : i.val ≤ s.measIdx.val) :
    (s.storeDuration s.ptCount).dur[i] ≤ s.cfg.ceiling := by
  simp only [State.storeDuration_dur, Fin.getElem_fin, Vector.getElem_set]
  split
  · exact hi.ptCount_le (hp ▸ rfl)
  · exact hi.durations.1 hp i (by omega)

/-- A matching sample below the ceiling is counted, and nothing else moves. -/
theorem State.Inv.count_succ (hi : s.Inv) (hm : measuring s.phase = true) (hc : s.ptCount ≠ s.cfg.ceiling) :
    { s with ptCount := s.ptCount + 1 }.Inv := by
  have hle : s.ptCount + 1 ≤ s.cfg.ceiling := Nat.lt_of_le_of_ne (hi.ptCount_le hm) hc
  exact ⟨hi.delay, State.countInRange_of_le hle, hi.durations, hi.valid, hi.measurement, hi.result, hi.drive⟩

theorem State.Inv.abort_timeout (hi : s.Inv) (hm : measuring s.phase = true) : (s.abort .timeout).Inv :=
  State.inv_of_failed rfl (hi.delay_of_measuring hm) le_rfl (.inl rfl) (hi.no_measurement_of_measuring hm)

/-- The block's part of a tick keeps the invariants. -/
theorem State.Inv.phaseNext (hi : s.Inv) : (phaseNext s.phase s).Inv := by
  obtain ⟨-, -, hn⟩ | ⟨-, -, hn⟩ | ⟨hp, -, hn⟩ | ⟨hp, hd, hn⟩ | ⟨hp, -, hn⟩ | ⟨hp, hd, hn⟩ |
    ⟨hp, -, hn⟩ | ⟨hp, -, hn⟩ | ⟨h79, hp, -, hn⟩ | ⟨hp, h79, -, hn⟩ | ⟨hm, -, -, hn⟩ |
    ⟨hm, -, hc, hn⟩ | ⟨hp, hn⟩ | ⟨hp, hok, hn⟩ | ⟨hp, -, hn⟩ := phaseNext_cases s <;> rw [hn]
  -- the command port
  · exact hi.acceptRead
  · exact hi
  -- the request
  · exact State.inv_of_early (.inr (.inr (.inl rfl))) (State.delayInRange_of_zero rfl)
      (State.countInRange_of_not_measuring rfl hi.count.2) (hi.result_early (by simp [hp]))
      (hi.no_measurement (by simp [hp]))
  · have hlt := hi.delay.1 hp
    have hdelay : s.delayCnt + 1 ≤ s.cfg.reqLowTicks - 1 := by omega
    exact ⟨⟨fun _ => hdelay, by simp [hp], fun h => absurd hp h⟩, hi.count, hi.durations, hi.valid, hi.measurement,
      hi.result, hi.drive⟩
  · exact State.inv_of_early (by simp) (State.delayInRange_of_zero rfl) (State.countInRange_of_le (Nat.zero_le _))
      (hi.result_early (by simp [hp])) (hi.no_measurement (by simp [hp]))
  · have hlt := hi.delay.2.1 hp
    have hdelay : s.delayCnt + 1 ≤ s.cfg.reqHighTicks - 1 := by omega
    exact ⟨⟨by simp [hp], fun _ => hdelay, fun _ h => absurd hp h⟩, hi.count, hi.durations, hi.valid, hi.measurement,
      hi.result, hi.drive⟩
  -- the end of a measurement
  · exact State.inv_of_early (by simp) (State.delayInRange_of_zero (hi.delay_eq_zero hp))
      (State.countInRange_of_le (Nat.zero_le _)) (hi.result_early (by simp [hp])) (hi.no_measurement (by simp [hp]))
  · exact State.inv_of_data (.inl rfl) (hi.delay_eq_zero hp)
      (State.countInRange_of_le (Nat.zero_le _)) (by simp [State.DurationsInRange]) rfl
      (hi.no_measurement (by simp [hp]))
  · refine State.inv_of_data (.inl hp) (hi.delay_eq_zero hp)
      (State.countInRange_of_le (Nat.zero_le _)) ⟨fun _ i hlt => ?_, by simp [hp]⟩
      (hi.result_data (by simp [hp])) (hi.no_measurement (by simp [hp]))
    exact hi.storeDuration_le hp (Nat.lt_succ_iff.1 hlt)
  · refine State.inv_of_data (.inr (.inl rfl)) (hi.delay_eq_zero hp)
      (State.countInRange_of_le (Nat.zero_le _)) ⟨by simp, fun _ i => ?_⟩
      (hi.result_data (by simp [hp])) (hi.no_measurement (by simp [hp]))
    exact hi.storeDuration_le hp (by omega)
  · exact hi.abort_timeout hm
  · exact hi.count_succ hm hc
  -- the evaluation
  · exact State.inv_of_data (.inr (.inr rfl)) (hi.delay_eq_zero hp)
      (State.countInRange_of_not_measuring rfl hi.count.2) ⟨by simp, fun _ => hi.durations.2 (.inl hp)⟩
      (hi.result_data (by simp [hp])) (hi.no_measurement (by simp [hp]))
  · exact State.inv_publish (hi.delay_eq_zero hp) hi.count.2 hok
  · exact State.inv_of_failed rfl (hi.delay_eq_zero hp) hi.count.2 (.inr rfl)
      (hi.no_measurement (by simp [hp]))

/-- Spending the inputs of a tick touches nothing of the block. -/
theorem State.sameBlock_advance (s : State) : s.SameBlock s.advance :=
  ⟨rfl, rfl, rfl, rfl, rfl, rfl, rfl, rfl, rfl, rfl⟩

theorem State.Inv.tickNext (hi : s.Inv) : (tickNext s).Inv := by
  cases hr : s.now.rst
  case true =>
    rw [tickNext_rst hr]
    exact s.inv_resetRegisters.congr s.resetRegisters.sameBlock_advance
  case false => exact hi.phaseNext.congr (tickNext_sameBlock hr).symm

end Step

/-- Settles O44: a reset loads a state that meets the invariants, and the block's part of any other tick keeps them. -/
theorem invariantsAreKeptByEveryStep : Obligations.InvariantsAreKeptByEveryStep := fun _ _ hi ht =>
  tickNext_of_step ht ▸ hi.tickNext

/-- Settles O43: every register stands at its reset value. -/
theorem invariantsHoldAtReset : Obligations.InvariantsHoldAtReset :=
  ⟨State.reset.inv_resetRegisters, ⟨nofun, Nat.zero_le _⟩, State.unitAgrees_reset⟩

end Sys2Proof.Machine
end

section
/-! PROOFS. A measurement as a function of the samples (40_pulse_timer.md R103): what `measureFn` gives for so many
matching samples, and that it is the loop of R101. -/

namespace Sys2Proof.Machine

section Measure
variable {ceiling p n : Nat} {l : Level} {samples : Nat → Level}

theorem measureFn_eq_count (hmatch : ∀ i, i < n → samples (p + i) = l) (hne : samples (p + n) ≠ l)
    (hn : n ≤ ceiling) : measureFn ceiling l samples p = (.count n, n + 1) := by
  simp only [measureFn, leadingMatches_eq hmatch hne (Nat.lt_succ_of_le hn), if_pos hn]

theorem measureFn_eq_timeout (hmatch : ∀ i, i ≤ ceiling → samples (p + i) = l) :
    measureFn ceiling l samples p = (.timeout, ceiling + 1) := by
  have hall : leadingMatches l samples (ceiling + 1) p = ceiling + 1 :=
    (leadingMatches_eq_all l samples (ceiling + 1) p).2 fun i hi => hmatch i (Nat.le_of_lt_succ hi)
  simp only [measureFn, hall, if_neg (Nat.not_succ_le_self ceiling)]

/-- Inversion of `measureFn`: the two things a measurement can come to, each with the samples it saw. -/
theorem measureFn_cases (ceiling : Nat) (l : Level) (samples : Nat → Level) (p : Nat) :
    (∃ n, n ≤ ceiling ∧ (∀ i, i < n → samples (p + i) = l) ∧ samples (p + n) ≠ l ∧
      measureFn ceiling l samples p = (.count n, n + 1)) ∨
    ((∀ i, i ≤ ceiling → samples (p + i) = l) ∧ measureFn ceiling l samples p = (.timeout, ceiling + 1)) := by
  obtain ⟨hmatch, hne⟩ := leadingMatches_spec l samples (ceiling + 1) p
  obtain hle | hgt := le_or_gt (leadingMatches l samples (ceiling + 1) p) ceiling
  · exact .inl ⟨_, hle, hmatch, hne (Nat.lt_succ_of_le hle),
      measureFn_eq_count hmatch (hne (Nat.lt_succ_of_le hle)) hle⟩
  · have hall : ∀ i, i ≤ ceiling → samples (p + i) = l := fun i hi => hmatch i (by omega)
    exact .inr ⟨hall, measureFn_eq_timeout hall⟩

/-- The sample that ends a measurement: the last consumed, after `n` matching ones. -/
theorem measureFn_last (ceiling : Nat) (l : Level) (samples : Nat → Level) (p : Nat) :
    ∃ n, n ≤ ceiling ∧ (∀ i, i < n → samples (p + i) = l) ∧ (measureFn ceiling l samples p).2 = n + 1 ∧
      ((samples (p + n) ≠ l ∧ (measureFn ceiling l samples p).1 = .count n) ∨
        (samples (p + n) = l ∧ n = ceiling ∧ (measureFn ceiling l samples p).1 = .timeout)) := by
  obtain ⟨n, hn, hmatch, hne, hm⟩ | ⟨hmatch, hm⟩ := measureFn_cases ceiling l samples p <;> rw [hm]
  · exact ⟨n, hn, hmatch, rfl, .inl ⟨hne, rfl⟩⟩
  · exact ⟨ceiling, le_rfl, fun i hi => hmatch i hi.le, rfl, .inr ⟨hmatch ceiling le_rfl, rfl, rfl⟩⟩

/-- The loop of R101 with `c` samples counted, when `n - c` more match and the next one differs. -/
theorem measureLoop_eq_count (fuel c q : Nat) (hfuel : n - c < fuel) (hc : c ≤ n) (hn : n ≤ ceiling)
    (hmatch : ∀ i, i < n - c → samples (q + i) = l) (hne : samples (q + (n - c)) ≠ l) :
    measureLoop ceiling l samples fuel c q = (.count n, n + 1) := by
  induction fuel generalizing c q with
  | zero => omega
  | succ fuel ih =>
    unfold measureLoop
    obtain rfl | hlt := Nat.eq_or_lt_of_le hc
    · rw [ptStep_ne (by simpa using hne)]
    · have hsample : samples q = l := hmatch 0 (by omega)
      rw [hsample, ptStep_continues (by omega)]
      refine ih (c + 1) (q + 1) (by omega) hlt (fun i hi => ?_) ?_
      · rw [Nat.add_assoc, Nat.add_comm 1 i]
        exact hmatch (i + 1) (by omega)
      · rwa [show q + 1 + (n - (c + 1)) = q + (n - c) by omega]

/-- The loop of R101 with `c` samples counted, when the samples up to the ceiling match. -/
theorem measureLoop_eq_timeout (fuel c q : Nat) (hfuel : ceiling - c < fuel) (hc : c ≤ ceiling)
    (hmatch : ∀ i, i ≤ ceiling - c → samples (q + i) = l) :
    measureLoop ceiling l samples fuel c q = (.timeout, ceiling + 1) := by
  induction fuel generalizing c q with
  | zero => omega
  | succ fuel ih =>
    unfold measureLoop
    have hsample : samples q = l := hmatch 0 (by omega)
    obtain rfl | hlt := Nat.eq_or_lt_of_le hc
    · rw [hsample, ptStep_timedOut]
    · rw [hsample, ptStep_continues (by omega)]
      refine ih (c + 1) (q + 1) (by omega) hlt fun i hi => ?_
      rw [Nat.add_assoc, Nat.add_comm 1 i]
      exact hmatch (i + 1) (by omega)

theorem measureLoop_eq_measureFn (ceiling : Nat) (l : Level) (samples : Nat → Level) (p : Nat) :
    measureLoop ceiling l samples (ceiling + 1) 0 p = measureFn ceiling l samples p := by
  obtain ⟨n, hn, hmatch, hne, hm⟩ | ⟨hmatch, hm⟩ := measureFn_cases ceiling l samples p
  · rw [hm, measureLoop_eq_count (ceiling + 1) 0 p (by omega) (Nat.zero_le n) hn (by simpa using hmatch)
      (by simpa using hne)]
  · rw [hm, measureLoop_eq_timeout (ceiling + 1) 0 p (by omega) (Nat.zero_le _) (by simpa using hmatch)]

end Measure

/-- Settles O10: the loop is `measureFn`, and the clauses hold in each of the two cases of `measureFn_cases`. -/
theorem measurementCountsLeadingSamples : Obligations.MeasurementCountsLeadingSamples := by
  intro ceiling l samples p
  refine ⟨measureLoop_eq_measureFn ceiling l samples p, fun n hn hmatch hne => measureFn_eq_count hmatch hne hn, ?_⟩
  obtain ⟨n, hn, hmatch, hne, hm⟩ | ⟨hmatch, hm⟩ := measureFn_cases ceiling l samples p <;> rw [hm]
  · refine ⟨⟨nofun, fun hall => absurd (hall n hn) hne⟩, nofun, fun k hk => ?_, by simp, by simpa using hn⟩
    cases hk
    exact ⟨hn, rfl⟩
  · exact ⟨⟨fun _ => hmatch, fun _ => rfl⟩, fun _ => rfl, nofun, by simp, le_rfl⟩

/-- Settles O18: three measurements, each with its matching samples and the one that ends it. -/
theorem chainedMeasurementsCountOneLess : Obligations.ChainedMeasurementsCountOneLess := by
  intro ceiling l h p samples hceiling hl hh hfirst hlow hhigh hlast
  refine ⟨measureFn_eq_count (fun i hi => ?_) ?_ hceiling, measureFn_eq_count (fun i hi => ?_) ?_ hl,
    measureFn_eq_count (fun i hi => ?_) ?_ hh⟩
  · rwa [show p + i = p by omega]
  · rw [show p + 1 = p + 1 + 0 by omega, hlow 0 (by omega)]
    nofun
  · rw [show p + 2 + i = p + 1 + (i + 1) by omega]
    exact hlow (i + 1) (by omega)
  · rw [show p + 2 + l = p + l + 2 + 0 by omega, hhigh 0 (by omega)]
    nofun
  · rw [show p + l + 3 + i = p + l + 2 + (i + 1) by omega]
    exact hhigh (i + 1) (by omega)
  · rw [show p + l + 3 + h = p + l + h + 3 by omega, hlast]
    nofun

end Sys2Proof.Machine
end

section
/-! PROOFS. The unit over several ticks (40_pulse_timer.md R105, R109, R112): its counter's range, and a measurement
from the tick its command is taken to the tick it delivers. -/

namespace Sys2Proof.Machine

section Tick
variable {s : State}

theorem State.UnitInv.mk_of_le (h : s.unitCount ≤ s.cfg.ceiling) : s.UnitInv := ⟨fun _ => h, h.trans (Nat.le_succ _)⟩

/-- The unit's registers after a tick without reset. -/
theorem tickNext_sameUnit (hr : s.now.rst = false) : (tickNext s).SameUnit (s.unitTick s.unitCommand) := by
  rw [tickNext_run hr]
  exact ⟨rfl, rfl, rfl⟩

/-- Everything a tick can do to the unit's counter. -/
theorem tickNext_unitCount_cases (s : State) :
    (tickNext s).unitCount = 0 ∨
    (s.unitBusy = false ∧ (tickNext s).unitBusy = false ∧ (tickNext s).unitCount = s.unitCount) ∨
    (s.unitBusy = true ∧ s.unitCount = s.cfg.ceiling ∧ (tickNext s).unitBusy = false ∧
      (tickNext s).unitCount = s.unitCount + 1) ∨
    (s.unitBusy = true ∧ s.unitCount ≠ s.cfg.ceiling ∧ (tickNext s).unitCount = s.unitCount + 1) := by
  cases hr : s.now.rst
  case true => exact .inl (by rw [tickNext_rst hr]; rfl)
  case false =>
    obtain ⟨hbusy, -, hcount⟩ := tickNext_sameUnit hr
    rw [hbusy, hcount]
    cases hb : s.unitBusy
    case false =>
      rw [State.unitTick_idle hb]
      cases s.unitCommand <;> simp
    case true =>
      obtain ⟨h, -⟩ | ⟨h, hc, -⟩ | ⟨h, hc, -⟩ := ptStep_cases s.cfg.ceiling s.unitCount s.unitExp s.now.pinIn
      · rw [State.unitTick_counted hb h]
        simp
      · rw [State.unitTick_timedOut hb h hc]
        cases s.unitCommand <;> simp [hc]
      · rw [State.unitTick_continues hb h hc]
        simp [hc]

theorem State.UnitInv.tickNext (hi : s.UnitInv) : (tickNext s).UnitInv := by
  obtain h | ⟨-, hb, h⟩ | ⟨-, hc, hb, h⟩ | ⟨hbusy, hc, h⟩ := tickNext_unitCount_cases s
  · exact State.UnitInv.mk_of_le (by omega)
  · exact ⟨by simp [hb], by simpa [h] using hi.bound⟩
  · exact ⟨by simp [hb], by simp [h, hc]⟩
  · have hle := hi.busy hbusy
    refine State.UnitInv.mk_of_le ?_
    rw [h, tickNext_cfg]
    omega

/-- The pulse durations the unit delivers (30_encoding.md R74). -/
theorem State.unitOutput_cases (s : State) : s.unitOutput = none ∨
    (s.unitBusy = true ∧ s.unitOutput = some (.count s.unitCount)) ∨
    (s.unitBusy = true ∧ s.unitOutput = some .timeout) := by
  cases hr : s.now.rst
  case true => exact .inl (State.unitOutput_rst hr)
  case false =>
    cases hb : s.unitBusy
    case false => exact .inl (State.unitOutput_idle hb)
    case true =>
      obtain ⟨h, -⟩ | ⟨h, hc, -⟩ | ⟨h, hc, -⟩ := ptStep_cases s.cfg.ceiling s.unitCount s.unitExp s.now.pinIn
      · exact .inr (.inl ⟨rfl, State.unitOutput_counted hr hb h⟩)
      · exact .inr (.inr ⟨rfl, State.unitOutput_timedOut hr hb h hc⟩)
      · exact .inl (State.unitOutput_continues hb h hc)

/-- The unit is measuring the level `l` and has counted `c` samples of it. -/
def State.UnitCounting (l : Level) (c : Nat) (s : State) : Prop :=
  s.unitBusy = true ∧ s.unitExp = l ∧ s.unitCount = c

theorem State.UnitCounting.tickNext {l : Level} {c : Nat} (h : s.UnitCounting l c) (hr : s.now.rst = false)
    (hpin : s.now.pinIn = l) (hc : c ≠ s.cfg.ceiling) : (tickNext s).UnitCounting l (c + 1) := by
  obtain ⟨hb, rfl, rfl⟩ := h
  obtain ⟨hbusy, hexp, hcount⟩ := tickNext_sameUnit hr
  rw [State.unitTick_continues hb hpin hc] at hbusy hexp hcount
  exact ⟨hbusy, hexp, hcount⟩

/-- While the samples match and the ceiling is not reached, the unit counts one a tick. -/
theorem State.UnitCounting.ticks {l : Level} {c : Nat} (h : s.UnitCounting l c) {n : Nat} (hr : s.NoReset n)
    (hpin : ∀ i, i < n → (s.inputAt i).pinIn = l) (hn : c + n ≤ s.cfg.ceiling) :
    (ticks n s).UnitCounting l (c + n) := by
  induction n with
  | zero => exact h
  | succ n ih =>
    have hprev := ih (hr.mono n.le_succ) (fun i hi => hpin i (by omega)) (by omega)
    rw [ticks_succ']
    refine hprev.tickNext ((noReset_ticks hr).now one_pos) ?_ (by rw [ticks_cfg]; omega)
    rw [ticks_now]
    exact hpin n n.lt_succ_self

/-- At a matching sample below the ceiling nothing is delivered. -/
theorem State.UnitCounting.unitOutput_none {l : Level} {c : Nat} (h : s.UnitCounting l c) (hpin : s.now.pinIn = l)
    (hc : c ≠ s.cfg.ceiling) : s.unitOutput = none := by
  obtain ⟨hb, rfl, rfl⟩ := h
  exact State.unitOutput_continues hb hpin hc

/-- The tick that ends a measurement with no command at the port: its result is delivered and the unit is idle. -/
theorem State.UnitCounting.ends {l : Level} {c : Nat} {d : PulseDuration} (h : s.UnitCounting l c)
    (hr : s.now.rst = false) (hcmd : s.unitCommand = none)
    (hend : (s.now.pinIn ≠ l ∧ d = .count c) ∨ (s.now.pinIn = l ∧ c = s.cfg.ceiling ∧ d = .timeout)) :
    s.unitOutput = some d ∧ (Machine.tickNext s).unitBusy = false := by
  obtain ⟨hb, rfl, rfl⟩ := h
  obtain ⟨hbusy, -, -⟩ := tickNext_sameUnit hr
  rw [hcmd] at hbusy
  obtain ⟨hpin, rfl⟩ | ⟨hpin, hc, rfl⟩ := hend
  · exact ⟨State.unitOutput_counted hr hb hpin, hbusy.trans (by rw [State.unitTick_counted hb hpin]; rfl)⟩
  · exact ⟨State.unitOutput_timedOut hr hb hpin hc, hbusy.trans (by rw [State.unitTick_timedOut hb hpin hc]; rfl)⟩

theorem State.unitCommand_bench (h : s.unitPort = .bench) :
    s.unitCommand = if s.now.ptStart then some s.now.ptLevel else none := by
  simp [State.unitCommand, h]

/-- A command to the idle unit begins a measurement. -/
theorem tickNext_unitCounting {l : Level} (hb : s.unitBusy = false) (hr : s.now.rst = false)
    (hcmd : s.unitCommand = some l) : (tickNext s).UnitCounting l 0 := by
  obtain ⟨hbusy, hexp, hcount⟩ := tickNext_sameUnit hr
  rw [hcmd, State.unitTick_idle hb] at hbusy hexp hcount
  exact ⟨hbusy, hexp, hcount⟩

/-- A busy unit that is `n` samples below the ceiling delivers within `n` ticks: at a sample that differs at once, and
at a matching one it is one sample closer. -/
theorem State.exists_ptDone {n : Nat} (hb : s.unitBusy = true) (hn : s.unitCount + n = s.cfg.ceiling)
    (hr : s.NoReset (n + 1)) : ∃ k, k ≤ n ∧ (Machine.ticks k s).ptDone = true := by
  induction n generalizing s with
  | zero =>
    refine ⟨0, le_rfl, ?_⟩
    by_cases hpin : s.now.pinIn = s.unitExp
    · exact (State.ports_of_timeout (State.unitOutput_timedOut (hr.now one_pos) hb hpin hn)).1
    · exact (State.ports_of_count (State.unitOutput_counted (hr.now one_pos) hb hpin)).1
  | succ n ih =>
    have hrst : s.now.rst = false := hr.now (by omega)
    by_cases hpin : s.now.pinIn = s.unitExp
    · have hcounting : (Machine.tickNext s).UnitCounting s.unitExp (s.unitCount + 1) :=
        State.UnitCounting.tickNext ⟨hb, rfl, rfl⟩ hrst hpin (by omega)
      obtain ⟨hb', -, hc'⟩ := hcounting
      obtain ⟨k, hk, hdone⟩ := ih hb' (by rw [tickNext_cfg]; omega)
        (noReset_ticks (k := 1) (by rwa [Nat.add_comm]))
      exact ⟨k + 1, by omega, hdone⟩
    · exact ⟨0, Nat.zero_le _, (State.ports_of_count (State.unitOutput_counted hrst hb hpin)).1⟩

end Tick

/-! ### The statements -/

/-- Settles O16: each thing a tick can do to the counter keeps it in range. -/
theorem unitCounterStaysInRange : Obligations.UnitCounterStaysInRange := by
  intro s t hi ht
  obtain rfl := tickNext_of_step ht
  have hnext : (tickNext s).UnitInv := hi.tickNext
  refine ⟨hnext, ?_, fun hdw => ?_⟩
  · obtain h | ⟨-, -, h⟩ | ⟨-, -, -, h⟩ | ⟨-, -, h⟩ := tickNext_unitCount_cases s
    · exact .inr (.inr h)
    · exact .inl h
    · exact .inr (.inl h)
    · exact .inr (.inl h)
  · have hle := hnext.bound
    rw [tickNext_cfg] at hle
    omega

/-- Settles O17: the unit delivers a count that is in range while it is busy, or the sentinel. -/
theorem deliveredDurationsAreWellFormed : Obligations.DeliveredDurationsAreWellFormed := by
  intro s hi hdone
  obtain h | ⟨hb, h⟩ | ⟨-, h⟩ := s.unitOutput_cases
  · simp [State.ptDone, h] at hdone
  · obtain ⟨-, htimeout, hdur⟩ := State.ports_of_count h
    simpa [durBitsWellFormed, htimeout, hdur] using hi.busy hb
  · obtain ⟨-, htimeout, hdur⟩ := State.ports_of_timeout h
    simp [durBitsWellFormed, htimeout, hdur]

/-- Settles O14: the unit is `CEILING - pt_count` matching samples away from its Timeout. -/
theorem everyMeasurementEnds : Obligations.EveryMeasurementEnds := by
  intro s hi hb hr
  have hle := hi.busy hb
  obtain ⟨k, hk, hdone⟩ := State.exists_ptDone (n := s.cfg.ceiling - s.unitCount) hb (by omega) (hr.mono (by omega))
  exact ⟨k, _, by omega, after_iff.2 rfl, hdone⟩

/-- Settles O13: after the command the unit counts the leading matches one a tick, delivering nothing, and the sample
that ends the measurement is the last that `measureFn` consumes. -/
theorem unitDeliversTheMeasure : Obligations.UnitDeliversTheMeasure := by
  intro s level hport hb hstart hlevel m hr hquiet
  obtain ⟨n, hn, hmatch, hm, hend⟩ :=
    measureFn_last s.cfg.ceiling level (fun j => (s.inputAt (j + 1)).pinIn) 0
  simp only [Nat.zero_add] at hmatch hend
  replace hm : m.2 = n + 1 := hm
  rw [hm] at hr hquiet ⊢
  have hstarts : (tickNext s).UnitCounting level 0 :=
    tickNext_unitCounting hb (hr.now (by omega)) (by simp [State.unitCommand_bench hport, hstart, hlevel])
  have hcounts : ∀ i, i ≤ n → (ticks (i + 1) s).UnitCounting level i := fun i hi => by
    have hquietRun := hstarts.ticks (n := i) (noReset_ticks (k := 1) (hr.mono (by omega)))
      (fun j hj => by rw [tickNext_inputAt]; exact hmatch j (by omega)) (by rw [tickNext_cfg]; omega)
    rwa [Nat.zero_add, ← ticks_succ] at hquietRun
  refine ⟨?_, fun k t hk ht => ?_⟩
  · have hcmd : (ticks (n + 1) s).unitCommand = none := by
      rw [State.unitCommand_bench (by rwa [ticks_unitPort]), ticks_now]
      simp [hquiet n (by omega)]
    have hrst : (ticks (n + 1) s).now.rst = false := by
      rw [ticks_now]
      exact hr _ (by omega)
    obtain ⟨hout, hidle⟩ := (hcounts n le_rfl).ends hrst hcmd (by rwa [ticks_now, ticks_cfg])
    exact ⟨_, _, after_iff.2 rfl, hout, step_eq _, hidle⟩
  · obtain rfl := after_iff.1 ht
    cases k with
    | zero => exact State.unitOutput_idle hb
    | succ k =>
      refine (hcounts k (by omega)).unitOutput_none ?_ (by rw [ticks_cfg]; omega)
      rw [ticks_now]
      exact hmatch k (by omega)

end Sys2Proof.Machine
end

section
/-! PROOFS. No counter wraps (10_state.md R22 to R24, 40_pulse_timer.md R112): the invariants bound each counter, and
the widths of a configuration for which the rules are written hold the bounds. -/

namespace Sys2Proof.Machine

theorem State.Inv.delayCnt_lt {s : State} (hi : s.Inv) (hcfg : s.cfg.Runnable) : s.delayCnt < 2 ^ s.cfg.dlw := by
  obtain ⟨-, hlow, hhigh, -, hwidth⟩ := hcfg
  obtain ⟨hwlow, hwhigh⟩ := max_le_iff.1 hwidth
  obtain ⟨hdlow, hdhigh, hzero⟩ := hi.delay
  by_cases hp : s.phase = .reqLow
  · have := hdlow hp
    omega
  · by_cases hp' : s.phase = .reqHigh
    · have := hdhigh hp'
      omega
    · rw [hzero hp hp']
      exact Nat.two_pow_pos _

/-- Settles O45: the state after the tick meets the invariants of the block and of the unit. -/
theorem countersNeverWrap : Obligations.CountersNeverWrap := by
  intro s t hcfg hi hu ht
  obtain rfl := tickNext_of_step ht
  have hnext : (tickNext s).Inv := hi.tickNext
  have hcfg' : (tickNext s).cfg.Runnable := by rwa [tickNext_cfg]
  obtain ⟨-, -, -, hdw, -⟩ := id hcfg'
  have hcount := hnext.count.2
  have hunit := hu.tickNext.bound
  exact ⟨hnext.delayCnt_lt hcfg', by omega, by omega, (tickNext s).measIdx.isLt.trans (by decide)⟩

end Sys2Proof.Machine
end

section
/-! PROOFS. The wired form (41_protocol_engine.md R133, R134). With the unit in agreement, what it delivers is the
outcome of `pt_step` on the engine's own count, so the engine of the wired form writes what the phase's micro-operation writes;
and its counter, read off the unit, is the block's because the agreement is kept. -/

namespace Sys2Proof.Machine

section Engine
variable {s : State}

/-- The unit's delivery in a measuring phase: the block's count at the end of a pulse. -/
theorem State.UnitAgrees.unitOutput_counted (ha : s.UnitAgrees) (hr : s.now.rst = false)
    (hm : measuring s.phase = true) (hpin : s.now.pinIn ≠ s.expectedLevel) :
    s.unitOutput = some (.count s.ptCount) := by
  rw [State.unitOutput_counted hr (ha.busy.trans hm) (ha.expected hm ▸ hpin), ha.count]

theorem State.UnitAgrees.unitOutput_timedOut (ha : s.UnitAgrees) (hr : s.now.rst = false)
    (hm : measuring s.phase = true) (hpin : s.now.pinIn = s.expectedLevel) (hc : s.ptCount = s.cfg.ceiling) :
    s.unitOutput = some .timeout :=
  State.unitOutput_timedOut hr (ha.busy.trans hm) (hpin.trans (ha.expected hm).symm) (ha.count.trans hc)

theorem State.UnitAgrees.unitOutput_continues (ha : s.UnitAgrees) (hm : measuring s.phase = true)
    (hpin : s.now.pinIn = s.expectedLevel) (hc : s.ptCount ≠ s.cfg.ceiling) : s.unitOutput = none :=
  State.unitOutput_continues (ha.busy.trans hm) (hpin.trans (ha.expected hm).symm) (ha.count ▸ hc)

theorem State.engineTick_of_accepting (h : accepting s.phase = true) (out : Option PulseDuration) :
    s.engineTick out = s.serveCommand := by
  obtain hp | hp := (accepting_iff s.phase).1 h <;> simp [State.engineTick, hp]

/-- In a measuring phase the engine waits for the unit. -/
theorem State.engineTick_none (hm : measuring s.phase = true) : s.engineTick none = s := by
  obtain hp | hp | hp := (measuring_iff s.phase).1 hm <;> simp [State.engineTick, hp]

theorem State.engineTick_timeout (hm : measuring s.phase = true) :
    s.engineTick (some .timeout) = { s with phase := .done, result := .timeout } := by
  obtain hp | hp | hp := (measuring_iff s.phase).1 hm <;> simp [State.engineTick, hp]

/-- With the unit in agreement the engine of the wired form does what the phase's micro-operation does, its counter
aside. -/
theorem State.UnitAgrees.engineTick_eq (ha : s.UnitAgrees) (hr : s.now.rst = false) :
    { s.engineTick s.unitOutput with ptCount := (phaseNext s.phase s).ptCount } = phaseNext s.phase s := by
  obtain ⟨hp, hstart, hn⟩ | ⟨hp, hstart, hn⟩ | ⟨hp, hd, hn⟩ | ⟨hp, hd, hn⟩ | ⟨hp, hd, hn⟩ | ⟨hp, hd, hn⟩ |
    ⟨hp, hpin, hn⟩ | ⟨hp, hpin, hn⟩ | ⟨h79, hp, hpin, hn⟩ | ⟨hp, h79, hpin, hn⟩ | ⟨hm, hpin, hc, hn⟩ |
    ⟨hm, hpin, hc, hn⟩ | ⟨hp, hn⟩ | ⟨hp, hok, hn⟩ | ⟨hp, hok, hn⟩ := phaseNext_cases s <;> rw [hn]
  -- the command port
  · rw [State.engineTick_of_accepting ((accepting_iff _).2 hp), State.serveCommand_of_start hstart]
  · rw [State.engineTick_of_accepting ((accepting_iff _).2 hp), State.serveCommand_of_no_start hstart]
  -- the request
  · simp [State.engineTick, hp, hd]
  · simp [State.engineTick, hp, hd]
  · simp [State.engineTick, hp, hd]
  · simp [State.engineTick, hp, hd]
  -- the end of a measurement
  · rw [ha.unitOutput_counted hr (hp ▸ rfl) (by simpa [State.expectedLevel, hp] using hpin)]
    simp [State.engineTick, hp]
  · rw [ha.unitOutput_counted hr (hp ▸ rfl) (by simpa [State.expectedLevel, hp] using hpin)]
    simp [State.engineTick, hp, State.responseReady]
  · rw [ha.unitOutput_counted hr (hp ▸ rfl) (by simpa [State.expectedLevel, hp] using hpin)]
    simp [State.engineTick, hp, nextIndex_of_lt h79]
  · rw [ha.unitOutput_counted hr (hp ▸ rfl) (by simpa [State.expectedLevel, hp] using hpin)]
    simp [State.engineTick, hp, nextIndex_of_last (show ¬ s.measIdx.val < 79 by omega)]
  · rw [ha.unitOutput_timedOut hr hm hpin hc, State.engineTick_timeout hm]
    rfl
  · rw [ha.unitOutput_continues hm hpin hc, State.engineTick_none hm]
  -- the evaluation
  · simp [State.engineTick, hp]
  · simp [State.engineTick, hp, hok, State.publish]
  · simp [State.engineTick, hp, hok, State.abort]

theorem wiredStep_run (hr : s.now.rst = false) : wiredStep s =
    ({ s.engineTick s.unitOutput with ptCount := (s.unitTick s.engineCommand).unitCount }.withUnit
      (s.unitTick s.engineCommand).unitBusy (s.unitTick s.engineCommand).unitExp
      (s.unitTick s.engineCommand).unitCount).advance := by
  rw [wiredStep, if_neg (Bool.eq_false_iff.1 hr)]
  rfl

/-- A tick of the wired form is the machine's tick. -/
theorem State.UnitAgrees.wiredStep_eq (ha : s.UnitAgrees) (hport : s.unitPort = .engine) :
    wiredStep s = Machine.tickNext s := by
  cases hr : s.now.rst
  case true => rw [wiredStep_rst hr, tickNext_rst hr]
  case false =>
    have hcount := (ha.tickNext hport).count
    rw [tickNext_run hr, State.unitCommand_engine hport] at hcount ⊢
    have hsame : (s.unitTick s.engineCommand).unitCount = (phaseNext s.phase s).ptCount := hcount
    calc wiredStep s
        = ({ s.engineTick s.unitOutput with ptCount := (s.unitTick s.engineCommand).unitCount }.withUnit
            (s.unitTick s.engineCommand).unitBusy (s.unitTick s.engineCommand).unitExp
            (s.unitTick s.engineCommand).unitCount).advance := wiredStep_run hr
      _ = ((phaseNext s.phase s).withUnit (s.unitTick s.engineCommand).unitBusy (s.unitTick s.engineCommand).unitExp
            (s.unitTick s.engineCommand).unitCount).advance := by rw [hsame, ha.engineTick_eq hr, ← hsame]

end Engine

theorem State.UnitAgrees.wiredRun_eq {s : State} (ha : s.UnitAgrees) (hport : s.unitPort = .engine) (k : Nat) :
    wiredRun k s = Machine.ticks k s ∧ (wiredRun k s).UnitAgrees := by
  induction k generalizing s with
  | zero => exact ⟨rfl, ha⟩
  | succ k ih =>
    rw [wiredRun_succ, ha.wiredStep_eq hport, ticks_succ]
    exact ih (ha.tickNext hport) (by rwa [tickNext_unitPort])

/-- Settles O47: the step lemma, and its iteration from reset, where the unit agrees. -/
theorem wiredFormIsTheSameMachine : Obligations.WiredFormIsTheSameMachine := by
  refine ⟨fun s hport ha => ?_, fun cfg dur inputs k => ?_⟩
  · rw [ha.wiredStep_eq hport]
    exact ⟨step_eq s, ha.tickNext hport⟩
  · have ha : ({ State.reset with cfg := cfg, dur := dur, inputs := inputs } : State).UnitAgrees :=
      ⟨rfl, by simp [State.reset, measuring], rfl⟩
    obtain ⟨hrun, hagrees⟩ := ha.wiredRun_eq rfl k
    exact ⟨after_iff.2 hrun, hagrees.count, hagrees.busy⟩

end Sys2Proof.Machine
end

section
/-! PROOFS. The tick as a whole (60_exceptions.md R160, R165; 41_protocol_engine.md R121, R140): it always leads on, it
runs the two fetched operations, and what it does to the block is what `phaseNext` says. -/

namespace Sys2Proof.Machine

/-- Settles O36: `step` answers `tickNext`. -/
theorem blockNeverStops : Obligations.BlockNeverStops := fun s => ⟨tickNext s, step_eq s⟩

/-- Settles O37: the fields that neither the reset nor the two operations write. -/
theorem configurationIsNeverWritten : Obligations.ConfigurationIsNeverWritten := by
  intro s t ht
  obtain rfl := tickNext_of_step ht
  exact ⟨tickNext_cfg s, tickNext_unitPort s, tickNext_inputs s, tickNext_tick s⟩

/-! ### The fetched operations -/

/-- Settles O34: the operation at the unit's port is a tick of the unit, the one of the phase is `phaseNext`. -/
theorem stepRunsTheFetchedOperations : Obligations.StepRunsTheFetchedOperations := by
  intro s u i hr hu hi
  obtain ⟨u', hu', hexec⟩ := s.fetchUnit_exec
  obtain rfl : u' = u := Except.ok.inj (hu'.symm.trans hu)
  obtain rfl : microOp s.phase = i := Except.ok.inj (s.fetchPhase_eq.symm.trans hi)
  obtain ⟨hcfg, hport, hinputs, htick, hbusy, hexp, hcount⟩ := phaseNext_frame_fields s.phase s
  exact ⟨_, _, _, hexec, exec_microOp s.phase s, step_eq s, tickNext_sameBlock hr, tickNext_sameUnit hr,
    s.unitTick_sameBlock _, ⟨hbusy, hexp, hcount⟩, tickNext_inputs s, tickNext_tick s, tickNext_unitPort s,
    tickNext_cfg s⟩

/-- The inputs placed for the current tick are the ones sampled at it. -/
theorem State.withNow_now (s : State) (f : Inputs → Inputs) : ∃ x, (s.withNow f).now = f x := by
  unfold State.withNow
  cases h : s.inputs with
  | nil => exact ⟨Inputs.quiet, rfl⟩
  | cons x xs => exact ⟨x, rfl⟩

theorem State.withNow_phase (s : State) (f : Inputs → Inputs) : (s.withNow f).phase = s.phase := by
  unfold State.withNow
  cases s.inputs <;> rfl

theorem State.withNow_unitPort (s : State) (f : Inputs → Inputs) : (s.withNow f).unitPort = s.unitPort := by
  unfold State.withNow
  cases s.inputs <;> rfl

theorem decode_ok_lt {p : Port} {w : Nat} {i : Instr} (h : decode p w = .ok i) : w < 2 ^ p.width := by
  by_contra hw
  cases (decode_of_wide (not_lt.1 hw)).symm.trans h

theorem decode_of_decodeTableWord {nbits w : Nat} {i : Instr} (h : decodeTableWord nbits w = some i) :
    decode (portOfWidth nbits) w = .ok i := by
  unfold decodeTableWord at h
  cases hd : decode (portOfWidth nbits) w <;> simp_all

/-- A word placed on the port `start` is the word there at the next tick. -/
theorem State.place_cmd (s : State) {w : Nat} (hw : w < 2) :
    (s.place .cmd w).now.rst = false ∧ (s.place .cmd w).cmdWord = w := by
  obtain ⟨x, hx⟩ := s.withNow_now fun x => { x with rst := false, start := decide (w % 2 = 1) }
  have hnow : (s.place .cmd w).now = _ := hx
  unfold State.cmdWord
  rw [hnow]
  interval_cases w <;> exact ⟨rfl, rfl⟩

/-- A word placed on the unit's command port is the word there at the next tick. -/
theorem State.place_ptcmd (s : State) {w : Nat} (hw : w < 4) :
    (s.place .ptcmd w).now.rst = false ∧ (s.place .ptcmd w).ptCommandWord = w := by
  obtain ⟨x, hx⟩ := { s with unitPort := .bench }.withNow_now fun x =>
    { x with rst := false, ptStart := decide (w / 2 % 2 = 1), ptLevel := Level.ofBit w }
  have hnow : (s.place .ptcmd w).now = _ := hx
  have hport : (s.place .ptcmd w).unitPort = .bench := State.withNow_unitPort _ _
  unfold State.ptCommandWord
  rw [hnow, hport]
  interval_cases w <;> exact ⟨rfl, rfl⟩

/-- The code of a phase placed on the phase register selects that phase at the next tick. -/
theorem State.place_phase (s : State) {w : Nat} {p : Phase} (hp : phaseOfCode w = some p) :
    (s.place .phase w).now.rst = false ∧ (s.place .phase w).phase = p := by
  obtain ⟨x, hx⟩ := { s with phase := p }.withNow_now fun x => { x with rst := false }
  simp only [State.place, hp, hx, State.withNow_phase, and_self]

theorem exists_phaseOfCode_of_decode {w : Nat} {i : Instr} (h : decode .phase w = .ok i) :
    ∃ p, phaseOfCode w = some p ∧ i = microOp p := by
  have hw : w < 16 := decode_ok_lt h
  rw [decode_phase_of_lt hw, decodePhase] at h
  cases hp : phaseOfCode w with
  | none => simp [hp] at h
  | some p => exact ⟨p, rfl, by simpa [hp, eq_comm] using h⟩

/-- Settles O35: the port is told by the width, and a placed word stands on its port at the next tick. -/
theorem placedWordIsFetched : Obligations.PlacedWordIsFetched := by
  intro s nbits w i hi
  have hd := decode_of_decodeTableWord hi
  unfold State.withFetchWord
  by_cases h1 : nbits = 1
  · subst h1
    obtain ⟨hr, hword⟩ := s.place_cmd (w := w) (decode_ok_lt hd)
    exact ⟨hr, fun _ => hword.symm ▸ hd, nofun, fun h => absurd rfl h⟩
  · by_cases h2 : nbits = 2
    · subst h2
      obtain ⟨hr, hword⟩ := s.place_ptcmd (w := w) (decode_ok_lt hd)
      exact ⟨hr, nofun, fun _ => by rw [State.fetchUnit]; exact hword.symm ▸ hd, fun _ h => absurd rfl h⟩
    · have hport : portOfWidth nbits = .phase := by
        unfold portOfWidth
        split <;> simp_all
      rw [hport] at hd ⊢
      obtain ⟨p, hp, rfl⟩ := exists_phaseOfCode_of_decode hd
      obtain ⟨hr, hphase⟩ := s.place_phase hp
      exact ⟨hr, fun h => absurd h h1, fun h => absurd h h2, fun _ _ => by rw [State.fetchPhase_eq, hphase]⟩

/-! ### The responses -/

theorem exec_verify (s : State) :
    exec .verify s = if checksumOk s.frame then exec .resSuccess s else exec .resChecksumMismatch s := rfl

/-- Settles O29: each response is the named end of its rule's arm, which the micro-operations answer. -/
theorem responsesAreTheWritesOfTheirRules : Obligations.ResponsesAreTheWritesOfTheirRules := by
  refine ⟨fun _ => rfl, fun _ => rfl, fun _ => rfl, fun _ => rfl, fun s => ?_, fun s hpin => ?_,
    fun s hm hpin hc => ?_⟩
  · rw [exec_verify]
    split
    · exact .inl rfl
    · exact .inr rfl
  · exact exec_of_phaseNext .ackHigh (phaseNext_ackHigh_counted hpin)
  · exact exec_of_phaseNext s.phase (phaseNext_timedOut hm hpin hc)

/-! ### The phase -/

theorem Level.ne_low_iff {l : Level} : l ≠ .low ↔ l = .high := by cases l <;> simp

theorem Level.ne_high_iff {l : Level} : l ≠ .high ↔ l = .low := by cases l <;> simp

/-- Settles O38: one row of the table per phase. -/
theorem phaseTransitionsAreTheTable : Obligations.PhaseTransitionsAreTheTable := by
  intro s t ht
  obtain rfl := tickNext_of_step ht
  refine ⟨fun hr => by rw [tickNext_rst hr]; rfl, fun hr => ?_⟩
  obtain ⟨-, hphase, -⟩ := tickNext_sameBlock hr
  rw [hphase]
  refine ⟨fun hp => ?_, fun hp => ?_, fun hp => ?_, fun hp => ?_, fun hp => ?_, fun hp => ?_, fun hp => ?_,
    fun hp => ?_, fun hp => ?_⟩ <;> rw [hp]
  · rw [phaseNext_idle]
    split <;> simp [hp]
  · rw [phaseNext_reqLow]
    split <;> simp [hp]
  · rw [phaseNext_reqHigh]
    split <;> simp [hp]
  · obtain ⟨h, e⟩ | ⟨h, hc, e⟩ | ⟨h, hc, e⟩ := ptStep_cases s.cfg.ceiling s.ptCount .low s.now.pinIn <;> rw [e]
    · rw [phaseNext_ackLow_counted (Level.ne_low_iff.1 h)]
    · rw [phaseNext_timedOut rfl h hc, State.abort_timeout_phase]
    · rw [phaseNext_continues rfl h hc, hp]
  · obtain ⟨h, e⟩ | ⟨h, hc, e⟩ | ⟨h, hc, e⟩ := ptStep_cases s.cfg.ceiling s.ptCount .high s.now.pinIn <;> rw [e]
    · rw [phaseNext_ackHigh_counted (Level.ne_high_iff.1 h), State.responseReady_phase]
    · rw [phaseNext_timedOut rfl h hc, State.abort_timeout_phase]
    · rw [phaseNext_continues rfl h hc, hp]
  · obtain ⟨h, e⟩ | ⟨h, hc, e⟩ | ⟨h, hc, e⟩ :=
      ptStep_cases s.cfg.ceiling s.ptCount (levelOfIndex s.measIdx) s.now.pinIn <;> rw [e]
    · by_cases h79 : s.measIdx.val < 79
      · rw [phaseNext_frame_counted h h79, State.storeDuration_phase, hp]
        exact (if_pos h79).symm
      · rw [phaseNext_frame_counted_last h (by omega)]
        exact (if_neg h79).symm
    · rw [phaseNext_timedOut rfl h hc, State.abort_timeout_phase]
    · rw [phaseNext_continues rfl h hc, hp]
  · rfl
  · rw [phaseNext_verify]
    split <;> rfl
  · rw [phaseNext_done]
    split <;> simp [hp]

end Sys2Proof.Machine
end

section
/-! PROOFS. What a tick without reset writes, register by register (10_state.md R20, R32; 20_memory.md R53), where the
failures come from (60_exceptions.md R162, R165), and which inputs it reads (41_protocol_engine.md R140). -/

namespace Sys2Proof.Machine

section Writes
variable {s : State}

/-- `dur` is written at the end of a data measurement only, the entry `meas_idx` with the count (20_memory.md R53). -/
theorem phaseNext_dur_cases (s : State) : (phaseNext s.phase s).dur = s.dur ∨
    (s.phase = .frame ∧ s.now.pinIn ≠ levelOfIndex s.measIdx ∧
      (phaseNext s.phase s).dur = s.dur.set s.measIdx s.ptCount) := by
  obtain ⟨-, -, hn⟩ | ⟨-, -, hn⟩ | ⟨-, -, hn⟩ | ⟨-, -, hn⟩ | ⟨-, -, hn⟩ | ⟨-, -, hn⟩ | ⟨-, -, hn⟩ | ⟨-, -, hn⟩ |
    ⟨_, hp, hpin, hn⟩ | ⟨hp, -, hpin, hn⟩ | ⟨-, -, -, hn⟩ | ⟨-, -, -, hn⟩ | ⟨-, hn⟩ | ⟨-, -, hn⟩ | ⟨-, -, hn⟩ :=
    phaseNext_cases s <;> rw [hn]
  iterate 8 exact .inl rfl
  · exact .inr ⟨hp, hpin, rfl⟩
  · exact .inr ⟨hp, hpin, rfl⟩
  iterate 5 exact .inl rfl

/-- A failure is reported by the abort alone (60_exceptions.md R166): everything else keeps `result`, clears it, or
writes Success or ResponseReady. -/
theorem phaseNext_result_cases (s : State) :
    ((phaseNext s.phase s).result = s.result ∨ (phaseNext s.phase s).result = .success ∨
      (phaseNext s.phase s).result = .responseReady) ∨
    (measuring s.phase = true ∧ s.now.pinIn = s.expectedLevel ∧ s.ptCount = s.cfg.ceiling ∧
      phaseNext s.phase s = s.abort .timeout) ∨
    (s.phase = .verify ∧ checksumOk s.frame = false ∧ phaseNext s.phase s = s.abort .checksumMismatch) := by
  obtain ⟨-, -, hn⟩ | ⟨-, -, hn⟩ | ⟨-, -, hn⟩ | ⟨-, -, hn⟩ | ⟨-, -, hn⟩ | ⟨-, -, hn⟩ | ⟨-, -, hn⟩ | ⟨-, -, hn⟩ |
    ⟨_, -, -, hn⟩ | ⟨-, -, -, hn⟩ | h | ⟨-, -, -, hn⟩ | ⟨-, hn⟩ | ⟨-, -, hn⟩ | h := phaseNext_cases s
  iterate 10 exact .inl (by simp [hn])
  · exact .inr (.inl h)
  iterate 3 exact .inl (by simp [hn])
  · exact .inr (.inr h)

/-- What the micro-operation of each phase leaves alone. -/
theorem phaseNext_writes (s : State) :
    ((phaseNext s.phase s).delayCnt ≠ s.delayCnt →
      s.phase = .idle ∨ s.phase = .done ∨ s.phase = .reqLow ∨ s.phase = .reqHigh) ∧
    ((phaseNext s.phase s).ptCount ≠ s.ptCount →
      s.phase = .reqHigh ∨ s.phase = .ackLow ∨ s.phase = .ackHigh ∨ s.phase = .frame) ∧
    ((phaseNext s.phase s).measIdx ≠ s.measIdx →
      s.phase = .idle ∨ s.phase = .done ∨ s.phase = .ackHigh ∨ s.phase = .frame) ∧
    ((phaseNext s.phase s).frame ≠ s.frame → s.phase = .decode) ∧
    ((phaseNext s.phase s).meas ≠ s.meas ∨ (phaseNext s.phase s).measValid ≠ s.measValid →
      s.phase = .idle ∨ s.phase = .done ∨ s.phase = .verify) ∧
    ((phaseNext s.phase s).result ≠ s.result → s.phase ≠ .reqLow ∧ s.phase ≠ .reqHigh ∧ s.phase ≠ .decode) := by
  obtain ⟨hp, -, hn⟩ | ⟨-, -, hn⟩ | ⟨hp, -, hn⟩ | ⟨hp, -, hn⟩ | ⟨hp, -, hn⟩ | ⟨hp, -, hn⟩ | ⟨hp, -, hn⟩ |
    ⟨hp, -, hn⟩ | ⟨_, hp, -, hn⟩ | ⟨hp, -, -, hn⟩ | ⟨hm, -, -, hn⟩ | ⟨hm, -, -, hn⟩ | ⟨hp, hn⟩ | ⟨hp, -, hn⟩ |
    ⟨hp, -, hn⟩ := phaseNext_cases s <;> rw [hn]
  · obtain hp | hp := hp <;> simp [hp]
  · simp
  iterate 8 simp [hp]
  iterate 2 obtain hp | hp | hp := (measuring_iff s.phase).1 hm <;> simp [hp]
  iterate 3 simp [hp]

end Writes

/-- Settles O39: the block after the tick is that of the micro-operation. -/
theorem registersChangeOnlyByTheirRules : Obligations.RegistersChangeOnlyByTheirRules := by
  intro s t hr ht
  obtain rfl := tickNext_of_step ht
  obtain ⟨-, -, hdelay, hcount, hidx, hdur, hframe, hmeas, hvalid, hresult⟩ := tickNext_sameBlock hr
  obtain ⟨wdelay, wcount, widx, wframe, wmeas, wresult⟩ := phaseNext_writes s
  rw [hdelay, hcount, hidx, hdur, hframe, hmeas, hvalid, hresult]
  refine ⟨wdelay, wcount, widx, fun hne => ?_, wframe, wmeas, wresult⟩
  obtain h | ⟨hp, -⟩ := phaseNext_dur_cases s
  · exact absurd h hne
  · exact hp

/-- Settles O40: the entry that changes is the one that is written. -/
theorem onlyTheMeasuredDurationIsStored : Obligations.OnlyTheMeasuredDurationIsStored := by
  intro s t j hr ht hne
  obtain rfl := tickNext_of_step ht
  obtain ⟨-, -, -, -, -, hdur, -⟩ := tickNext_sameBlock hr
  rw [hdur] at hne ⊢
  obtain h | ⟨hp, hpin, h⟩ := phaseNext_dur_cases s
  · exact absurd (congrArg (·[j]) h) hne
  · obtain rfl : j = s.measIdx := by
      by_contra hj
      refine hne (h ▸ ?_)
      simp [Fin.val_ne_of_ne (Ne.symm hj)]
    have hentry : (phaseNext s.phase s).dur[s.measIdx] = s.ptCount := by simp [h]
    exact ⟨hp, rfl, hpin, hentry, fun hi => hentry ▸ hi.ptCount_le (hp ▸ rfl)⟩

/-- Settles O42: a failure not there before comes from the abort, which shows no Measurement as there was none. -/
theorem failuresAriseOnlyAtTheirTicks : Obligations.FailuresAriseOnlyAtTheirTicks := by
  intro s t hi hr ht
  obtain rfl := tickNext_of_step ht
  obtain ⟨-, hphase, -, hcount, hidx, -, hframe, -, hvalid, hresult⟩ := tickNext_sameBlock hr
  rw [hphase, hcount, hidx, hframe, hvalid, hresult]
  obtain h | ⟨hm, hpin, hc, hn⟩ | ⟨hp, hfail, hn⟩ := phaseNext_result_cases s
  · constructor <;> intro htimeout hne <;> obtain h | h | h := h <;> simp_all
  · refine ⟨fun _ _ => ⟨hm, hpin, hc, ?_⟩, fun hmismatch => by simp [hn] at hmismatch⟩
    rw [hn]
    exact ⟨rfl, rfl, (hi.no_measurement_of_measuring hm).1, rfl, rfl⟩
  · refine ⟨fun htimeout => by simp [hn] at htimeout, fun _ _ => ⟨hp, hfail, ?_⟩⟩
    rw [hn]
    exact ⟨rfl, (hi.no_measurement (by simp [hp])).1⟩

/-! ### The inputs a tick reads -/

/-- What the micro-operation reads: the block, `start` where a read may be accepted, and the line where it is
measured. -/
theorem State.SameBlock.phaseNext {s s' : State} (h : s.SameBlock s')
    {p : Phase} (hstart : accepting p = true → s.now.start = s'.now.start)
    (hpin : measuring p = true → s.now.pinIn = s'.now.pinIn) : (phaseNext p s).SameBlock (phaseNext p s') := by
  obtain ⟨port, b, l, c, inputs, tick, rfl⟩ := h.eq_update
  cases p
  · rw [phaseNext_idle, phaseNext_idle, ← hstart rfl]
    split <;> exact ⟨rfl, rfl, rfl, rfl, rfl, rfl, rfl, rfl, rfl, rfl⟩
  · rw [phaseNext_reqLow, phaseNext_reqLow]
    dsimp only
    split <;> exact ⟨rfl, rfl, rfl, rfl, rfl, rfl, rfl, rfl, rfl, rfl⟩
  · rw [phaseNext_reqHigh, phaseNext_reqHigh]
    dsimp only
    split <;> exact ⟨rfl, rfl, rfl, rfl, rfl, rfl, rfl, rfl, rfl, rfl⟩
  · rw [phaseNext_ackLow, phaseNext_ackLow, State.pinSample_eq, State.pinSample_eq, ← hpin rfl]
    dsimp only
    split <;> [skip; split] <;> exact ⟨rfl, rfl, rfl, rfl, rfl, rfl, rfl, rfl, rfl, rfl⟩
  · rw [phaseNext_ackHigh, phaseNext_ackHigh, State.pinSample_eq, State.pinSample_eq, ← hpin rfl]
    dsimp only
    split <;> [skip; split] <;> exact ⟨rfl, rfl, rfl, rfl, rfl, rfl, rfl, rfl, rfl, rfl⟩
  · rw [phaseNext_frame, phaseNext_frame, State.pinSample_eq, State.pinSample_eq, ← hpin rfl]
    dsimp only
    split <;> split <;> exact ⟨rfl, rfl, rfl, rfl, rfl, rfl, rfl, rfl, rfl, rfl⟩
  · exact ⟨rfl, rfl, rfl, rfl, rfl, rfl, rfl, rfl, rfl, rfl⟩
  · rw [phaseNext_verify, phaseNext_verify]
    dsimp only
    split <;> exact ⟨rfl, rfl, rfl, rfl, rfl, rfl, rfl, rfl, rfl, rfl⟩
  · rw [phaseNext_done, phaseNext_done, ← hstart rfl]
    split <;> exact ⟨rfl, rfl, rfl, rfl, rfl, rfl, rfl, rfl, rfl, rfl⟩

/-- Settles O41: a phase either serves the command port, or measures, or reads neither input. -/
theorem ignoredInputsDoNotMatter : Obligations.IgnoredInputsDoNotMatter := by
  intro s s' t t' hblock hr hr' ht ht'
  obtain rfl := tickNext_of_step ht
  obtain rfl := tickNext_of_step ht'
  have hnext' := tickNext_sameBlock hr'
  obtain ⟨-, hphase, -⟩ := id hblock
  rw [← hphase] at hnext'
  have hnext : (accepting s.phase = true → s.now.start = s'.now.start) →
      (measuring s.phase = true → s.now.pinIn = s'.now.pinIn) → (tickNext s).SameBlock (tickNext s') :=
    fun hstart hpin =>
      (tickNext_sameBlock hr).trans ((hblock.phaseNext hstart hpin).trans hnext'.symm)
  refine ⟨fun hm hstart => hnext (fun _ => hstart) (by simp [hm]),
    fun ha hpin => hnext (by simp [ha]) fun _ => hpin, fun hp => ?_⟩
  obtain hp | hp | hp | hp := hp <;> exact hnext (by simp [hp, accepting]) (by simp [hp, measuring])

end Sys2Proof.Machine
end

section
/-! PROOFS. Idling and holding (70_reset_and_hazards.md R182, R187, R194): a phase that serves the command port keeps
the block as it is until a command or a reset comes. -/

namespace Sys2Proof.Machine

/-- The outputs are a function of the block's registers (10_state.md R30). -/
theorem State.SameBlock.outputs {s t : State} (h : s.SameBlock t) : s.outputs = t.outputs := by
  obtain ⟨_, _, _, _, _, _, rfl⟩ := h.eq_update
  rfl

/-- With no reset and no command, `IDLE` and `DONE` hold every register. -/
theorem ticks_sameBlock_of_no_start {s : State} {n : Nat} (hacc : accepting s.phase = true) (hr : s.NoReset n)
    (hstart : ∀ j, j < n → (s.inputAt j).start = false) : (ticks n s).SameBlock s := by
  induction n with
  | zero => exact State.SameBlock.refl s
  | succ n ih =>
    have hprev := ih (hr.mono n.le_succ) fun j hj => hstart j (by omega)
    obtain ⟨-, hphase, -⟩ := id hprev
    rw [ticks_succ']
    refine (tickNext_sameBlock_of_no_start (hphase ▸ hacc) ((noReset_ticks hr).now one_pos) ?_).trans hprev
    rw [ticks_now]
    exact hstart n n.lt_succ_self

/-- In `IDLE`, with nothing of a read on the ports. -/
structure State.Idling (s : State) : Prop where
  phase : s.phase = .idle
  result : s.result = .success
  measValid : s.measValid = false
  meas : s.meas = #v[0, 0, 0, 0]

theorem State.idling_of_rst {s : State} (hr : s.now.rst = true) : (tickNext s).Idling := by
  rw [tickNext_rst hr]
  exact ⟨rfl, rfl, rfl, rfl⟩

theorem State.Idling.tickNext {s : State} (h : s.Idling) (hstart : s.now.start = false) : (tickNext s).Idling := by
  cases hr : s.now.rst
  case true => exact State.idling_of_rst hr
  case false =>
    obtain ⟨-, hphase, -, -, -, -, -, hmeas, hvalid, hresult⟩ :=
      tickNext_sameBlock_of_no_start ((accepting_iff _).2 (.inl h.phase)) hr hstart
    exact ⟨hphase.trans h.phase, hresult.trans h.result, hvalid.trans h.measValid, hmeas.trans h.meas⟩

/-- Settles O7: the reset tick leads to `Idling`, which every tick without `start` keeps, reset or not. -/
theorem abandonedReadNeverFinishes : Obligations.AbandonedReadNeverFinishes := by
  intro s n hr hstart k hk
  have hidling : (ticks (k + 1) s).Idling := by
    induction k with
    | zero => exact State.idling_of_rst hr
    | succ k ih =>
      rw [ticks_succ']
      refine (ih (by omega)).tickNext ?_
      rw [ticks_now]
      exact hstart k hk
  exact ⟨_, after_iff.2 rfl, hidling.phase, by simp [State.doneOut, hidling.phase],
    by simp [State.resultOut, hidling.result, ResultCode.code], hidling.measValid, hidling.meas,
    State.pinOe_of_not_request hidling.phase (by decide)⟩

/-- Settles O53: `DONE` is held with its outputs, either event clears them, and without a Measurement the ports read
the cleared bytes. -/
theorem resultsAreHeldUntilTheNextRead : Obligations.ResultsAreHeldUntilTheNextRead := by
  refine ⟨fun s n hp hr hstart k hk => ?_, fun s t hp hevent ht => ?_, fun s hi hvalid => ?_⟩
  · have hacc : accepting s.phase = true := (accepting_iff _).2 (.inr hp)
    exact ⟨_, after_iff.2 rfl,
      (ticks_sameBlock_of_no_start hacc (hr.mono hk) fun j hj => hstart j (by omega)).outputs⟩
  · obtain rfl := tickNext_of_step ht
    cases hr : s.now.rst
    case true =>
      rw [tickNext_rst hr]
      exact ⟨rfl, rfl, rfl, rfl⟩
    case false =>
      have haccepts : s.Accepts := ⟨(accepting_iff _).2 (.inr hp), hevent.resolve_left (by simp [hr]), hr⟩
      obtain ⟨-, hphase, -, -, -, -, -, hmeas, hvalid, hresult⟩ := haccepts.tickNext_sameBlock
      exact ⟨hmeas, hvalid, by simp [State.resultOut, hresult, ResultCode.code], by simp [State.doneOut, hphase]⟩
  · have hzero : s.meas = #v[0, 0, 0, 0] := hi.measurement.2 hvalid
    simp [State.humInt, State.humFrac, State.tempInt, State.tempFrac, hzero]

/-- Settles O55: the HIGH sample ends the measurement of `ACK_LOW`. -/
theorem lateAcknowledgementIsNotWaitedFor : Obligations.LateAcknowledgementIsNotWaitedFor := by
  intro s hp _ hr hpin
  obtain ⟨-, hphase, -, hcount, -⟩ := tickNext_sameBlock hr
  rw [hp, phaseNext_ackLow_counted hpin] at hphase hcount
  exact ⟨_, step_eq s, hphase, hcount, (State.busy_iff _).2 (by simp [hphase])⟩

end Sys2Proof.Machine
end

section
/-! PROOFS. Data formats (20_memory.md R54; 41_protocol_engine.md R138; 00_scope.md R5, R6). -/

namespace Sys2Proof.Machine

theorem decodeFrame_getLsbD_eq_dataBit (dur : Vector Nat 80) (i : Fin 40) :
    ((decodeFrame dur)[i.val / 8]'(by omega)).getLsbD (7 - i.val % 8) = dataBit dur i := by
  have hbyte : (decodeFrame dur)[i.val / 8]'(by omega) = frameByte dur ⟨i.val / 8, by omega⟩ :=
    decodeFrame_getElem dur ⟨i.val / 8, by omega⟩
  rw [hbyte, frameByte]
  refine (packByte_getLsbD _ ⟨i.val % 8, by omega⟩).trans (congrArg (dataBit dur) (Fin.ext ?_))
  exact Nat.div_add_mod i.val 8

/-- Settles O31: the byte's bits are packed from its high end, and the 40-bit number has the bytes in order. -/
theorem firstBitReceivedIsMostSignificant : Obligations.FirstBitReceivedIsMostSignificant := fun dur i =>
  ⟨decodeFrame_getLsbD_eq_dataBit dur i,
    (frameWord_getLsbD (decodeFrame dur) i).trans (decodeFrame_getLsbD_eq_dataBit dur i)⟩

theorem checksum_toNat (f : Vector Byte 5) :
    (checksum f).toNat = (f[0].toNat + f[1].toNat + f[2].toNat + f[3].toNat) % 256 := BitVec.toNat_ofNat _ 8

/-- Settles O32: four bytes sum to at most `4 * 255`, and adding in 8 bits is adding modulo 256. -/
theorem checksumDropsTheCarries : Obligations.ChecksumDropsTheCarries := by
  intro f
  refine ⟨?_, checksum_toNat f, BitVec.eq_of_toNat_eq ?_, checksumOk_iff f⟩
  · have h0 := f[0].isLt
    have h1 := f[1].isLt
    have h2 := f[2].isLt
    have h3 := f[3].isLt
    omega
  · rw [checksum_toNat]
    simp [BitVec.toNat_add]

/-- Settles O33: the reset state holds the default configuration, whose constraints are facts about its numbers. -/
theorem defaultConfigurationIsValid : Obligations.DefaultConfigurationIsValid :=
  ⟨rfl, by decide⟩

end Sys2Proof.Machine
end

section
/-! PROOFS. The nominal waveform (30_encoding.md R77, R83; 95_test_vectors.md part 1). From the start of ACK to the end
of the frame it is 82 pulses of alternating level and the LOW pulse that ends them, so its measurements are the pulse
lengths, each but the first less the sample that ended the measurement before. -/

namespace Sys2Proof.Machine

/-! ### Alternating pulses -/

/-- Pulses of alternating level, the first that of index `m`, which chained measurements count as `counts`: each has a
tick more, its first, which ends the measurement before it (40_pulse_timer.md R106). -/
def pulses : Nat → List Nat → List Segment
  | _, [] => []
  | m, c :: counts => (levelOfIndex m, c + 1) :: pulses (m + 1) counts

theorem pulses_append (m : Nat) (xs ys : List Nat) :
    pulses m (xs ++ ys) = pulses m xs ++ pulses (m + xs.length) ys := by
  induction xs generalizing m with
  | nil => rfl
  | cons x xs ih => simp [pulses, ih, Nat.add_assoc, Nat.add_comm 1]

theorem levelAt_cons_lt {rest l : Level} {n j : Nat} {segs : List Segment} (h : j < n) :
    levelAt rest ((l, n) :: segs) j = l := if_pos h

theorem levelAt_cons_add (rest l : Level) (n j : Nat) (segs : List Segment) :
    levelAt rest ((l, n) :: segs) (n + j) = levelAt rest segs j := by
  simp [levelAt]

theorem levelAt_cons_succ (rest l : Level) (n j : Nat) (segs : List Segment) :
    levelAt rest ((l, n + 1) :: segs) (1 + j) = levelAt rest ((l, n) :: segs) j := by
  simp [levelAt, Nat.add_comm 1 j]

theorem levelOfIndex_succ_ne (m : Nat) : levelOfIndex (m + 1) ≠ levelOfIndex m := by
  rw [levelOfIndex_succ]
  cases levelOfIndex m <;> simp [Level.flip]

section Pulses
variable {ceiling c m p : Nat} {rest : Level} {samples : Nat → Level}

/-- One measurement of alternating pulses: it counts the rest of its pulse and takes the first tick of the next. -/
theorem measureFn_pulse {n : Nat} {segs : List Segment} (hc : c ≤ ceiling)
    (hsamples : ∀ j, samples (p + j) =
      levelAt rest ((levelOfIndex m, c) :: (levelOfIndex (m + 1), n + 1) :: segs) j) :
    measureFn ceiling (levelOfIndex m) samples p = (.count c, c + 1) ∧
    ∀ j, samples (p + (c + 1) + j) = levelAt rest ((levelOfIndex (m + 1), n) :: segs) j := by
  have hnext : ∀ j, samples (p + c + j) = levelAt rest ((levelOfIndex (m + 1), n + 1) :: segs) j := fun j => by
    rw [Nat.add_assoc, hsamples, levelAt_cons_add]
  refine ⟨measureFn_eq_count (fun i hi => (hsamples i).trans (levelAt_cons_lt hi)) ?_ hc, fun j => ?_⟩
  · have hfirst : samples (p + c) = levelOfIndex (m + 1) := (hnext 0).trans (levelAt_cons_lt (Nat.succ_pos n))
    exact hfirst ▸ levelOfIndex_succ_ne m
  · rw [← levelAt_cons_succ, ← hnext, ← Nat.add_assoc p c 1, Nat.add_assoc (p + c) 1 j]

/-- Chained measurements of alternating pulses count them. The first pulse has lost its first tick to the measurement
before, and the pulse `e` ends the last measurement. -/
theorem measureRun_pulses (e : Nat) (counts : List Nat) (hle : ∀ x ∈ c :: counts, x ≤ ceiling)
    (hsamples : ∀ j, samples (p + j) =
      levelAt rest ((levelOfIndex m, c) :: pulses (m + 1) (counts ++ [e])) j) :
    ∃ k, measureRun ceiling samples (counts.length + 1) m p = .counted (c :: counts) k := by
  induction counts generalizing c m p with
  | nil =>
    obtain ⟨hfirst, -⟩ := measureFn_pulse (hle c List.mem_cons_self) hsamples
    exact ⟨p + (c + 1), by simp [measureRun, hfirst]⟩
  | cons x xs ih =>
    obtain ⟨hfirst, hrest⟩ := measureFn_pulse (hle c List.mem_cons_self) hsamples
    obtain ⟨k, hk⟩ := ih (fun y hy => hle y (List.mem_cons_of_mem c hy)) hrest
    refine ⟨k, ?_⟩
    rw [List.length_cons, measureRun, hfirst]
    simp only [hk]

end Pulses

/-! ### The pulses of a frame -/

/-- The counts of the two pulses of each bit of a nominal frame (30_encoding.md R83). -/
def cellCounts (bits : List Bool) : List Nat := bits.flatMap fun b => [4, if b then 6 else 1]

/-- The bits of a byte in the order of their arrival. -/
def byteBits (b : Byte) : List Bool := [7, 6, 5, 4, 3, 2, 1, 0].map b.getLsbD

/-- The bits of a frame in the order of their arrival. -/
def frameBits (f : Vector Byte 5) : List Bool :=
  byteBits f[0] ++ byteBits f[1] ++ byteBits f[2] ++ byteBits f[3] ++ byteBits f[4]

theorem length_cellCounts (bits : List Bool) : (cellCounts bits).length = 2 * bits.length := by
  simp [cellCounts, Nat.mul_comm]

theorem cellCounts_le {bits : List Bool} {x : Nat} (h : x ∈ cellCounts bits) : x ≤ 6 := by
  simp only [cellCounts, List.mem_flatMap, List.mem_cons, List.not_mem_nil, or_false] at h
  obtain ⟨b, -, rfl | rfl⟩ := h
  · decide
  · cases b <;> decide

/-- The pulses of the bits of a frame, from an even index on, are the segments of R83. -/
theorem pulses_cellCounts (bits : List Bool) {m : Nat} (hm : m % 2 = 0) :
    pulses m (cellCounts bits) = bits.flatMap bitSegments := by
  induction bits generalizing m with
  | nil => rfl
  | cons b bits ih =>
    have hlow : levelOfIndex m = .low := by simp [levelOfIndex_eq, hm]
    have hhigh : levelOfIndex (m + 1) = .high := by simp [levelOfIndex_succ, hlow, Level.flip]
    have hcell : cellCounts (b :: bits) = 4 :: (if b then 6 else 1) :: cellCounts bits := rfl
    rw [hcell, pulses, pulses, hlow, hhigh, ih (by omega), List.flatMap_cons]
    cases b <;> rfl

theorem frameSegments_eq (f : Vector Byte 5) : frameSegments f = (frameBits f).flatMap bitSegments := by
  simp only [frameSegments, byteSegments, frameBits, byteBits, List.flatMap_append, List.flatMap_map]

/-- The line script `ACK FRAME(f) END`: one LOW pulse of 5 ticks, and then the alternating pulses that follow it. -/
theorem nominal_eq_pulses (f : Vector Byte 5) : ackSegments ++ frameSegments f ++ endSegments =
    (levelOfIndex 0, 5) :: pulses 1 (7 :: cellCounts (frameBits f) ++ [4]) := by
  have hlen : (cellCounts (frameBits f)).length = 80 := length_cellCounts _
  rw [frameSegments_eq, ← pulses_cellCounts (frameBits f) (m := 2) rfl, pulses_append]
  simp [pulses, hlen, ackSegments, endSegments, levelOfIndex, Level.ofBit]

theorem measureRun_nominal {ceiling : Nat} (hc : 7 ≤ ceiling) (f : Vector Byte 5) :
    ∃ k, measureRun ceiling (nominalSamples f) 82 0 0 = .counted (5 :: 7 :: cellCounts (frameBits f)) k := by
  have hlen : (7 :: cellCounts (frameBits f)).length + 1 = 82 := by
    rw [List.length_cons, length_cellCounts]
    rfl
  rw [← hlen]
  refine measureRun_pulses (rest := .high) 4 (7 :: cellCounts (frameBits f)) (fun x hx => ?_) fun j => ?_
  · obtain rfl | rfl | hx : x = 5 ∨ x = 7 ∨ x ∈ cellCounts (frameBits f) := by simpa using hx
    · omega
    · omega
    · have := cellCounts_le hx
      omega
  · rw [Nat.zero_add, nominalSamples, nominal_eq_pulses]

/-! ### The frame read back -/

/-- The comparison of R76 on the two counts of a nominal bit gives the bit. -/
theorem cellBit_cellCounts (bits : List Bool) (i : Nat) (h : i < bits.length) :
    cellBit ((cellCounts bits).getD (2 * i) 0) ((cellCounts bits).getD (2 * i + 1) 0) = bits[i] := by
  induction bits generalizing i with
  | nil => exact absurd h (Nat.not_lt_zero i)
  | cons b bits ih =>
    have hcell : cellCounts (b :: bits) = 4 :: (if b then 6 else 1) :: cellCounts bits := rfl
    rw [hcell]
    cases i with
    | zero => cases b <;> rfl
    | succ i => exact ih i (Nat.lt_of_succ_lt_succ h)

theorem getElem_frameBits (f : Vector Byte 5) (i : Fin 40) :
    (frameBits f)[i.val]'i.isLt = (f[i.val / 8]'(by omega)).getLsbD (7 - i.val % 8) := by
  fin_cases i <;> rfl

theorem dataBit_durationsOf (a b : Nat) (bits : List Bool) (i : Fin 40) (h : i.val < bits.length) :
    dataBit (durationsOf (a :: b :: cellCounts bits)) i = bits[i.val] := by
  rw [← cellBit_cellCounts bits i.val h, dataBit, durationsOf, Vector.getElem_ofFn, Vector.getElem_ofFn]
  rfl

/-- A frame is determined by its forty data bits. -/
theorem decodeFrame_eq_of_dataBit {dur : Vector Nat 80} {f : Vector Byte 5}
    (h : ∀ i : Fin 40, dataBit dur i = (f[i.val / 8]'(by omega)).getLsbD (7 - i.val % 8)) : decodeFrame dur = f := by
  refine Vector.ext fun k hk => BitVec.eq_of_getLsbD_eq fun j hj => ?_
  have hbit := (decodeFrame_getLsbD_eq_dataBit dur ⟨8 * k + (7 - j), by omega⟩).trans (h _)
  simpa only [show (8 * k + (7 - j)) / 8 = k by omega, show 7 - (8 * k + (7 - j)) % 8 = j by omega] using hbit

theorem decodeFrame_nominal (f : Vector Byte 5) :
    decodeFrame (durationsOf (5 :: 7 :: cellCounts (frameBits f))) = f :=
  decodeFrame_eq_of_dataBit fun i => (dataBit_durationsOf 5 7 (frameBits f) i i.isLt).trans (getElem_frameBits f i)

/-- Settles O54: the measurements of the waveform are its pulse lengths, which decode to the frame; the checksum test
decides what is reported of it. -/
theorem nominalFrameIsReadBack : Obligations.NominalFrameIsReadBack := by
  intro ceiling f hc r
  obtain ⟨k, hrun⟩ := measureRun_nominal hc f
  have hr : r = if checksumOk f then
      { result := .success, measurement := some #v[f[0], f[1], f[2], f[3]], consumed := k }
    else { result := .checksumMismatch, measurement := none, consumed := k } := by
    simp only [r, readFn, hrun, decodeFrame_nominal]
  refine ⟨fun hsum => ?_, fun hsum => ?_⟩
  · rw [hr, if_pos ((checksumOk_iff f).2 hsum)]
    exact ⟨rfl, rfl⟩
  · rw [hr, if_neg (mt (checksumOk_iff f).1 hsum)]
    exact ⟨rfl, rfl⟩

end Sys2Proof.Machine
end

section
/-! PROOFS. The samples of a read's measurements (41_protocol_engine.md R135): what a run of measurements consumes, and
that it depends on nothing else. -/

namespace Sys2Proof.Machine

/-- The samples a run of measurements consumes, up to its end. -/
def MeasureRun.consumed : MeasureRun → Nat
  | .counted _ k => k
  | .timedOut _ k => k

/-- A run with one more count before it. -/
def MeasureRun.cons (n : Nat) : MeasureRun → MeasureRun
  | .counted counts k => .counted (n :: counts) k
  | .timedOut number k => .timedOut number k

@[simp] theorem MeasureRun.consumed_cons (n : Nat) (r : MeasureRun) : (r.cons n).consumed = r.consumed := by
  cases r <;> rfl

section Run
variable {ceiling : Nat} {samples other : Nat → Level} {left m p : Nat}

theorem measureRun_of_count {n k : Nat} (h : measureFn ceiling (levelOfIndex m) samples p = (.count n, k)) :
    measureRun ceiling samples (left + 1) m p = (measureRun ceiling samples left (m + 1) (p + k)).cons n := by
  rw [measureRun, h]
  dsimp only
  cases measureRun ceiling samples left (m + 1) (p + k) <;> rfl

theorem measureRun_of_timeout {k : Nat} (h : measureFn ceiling (levelOfIndex m) samples p = (.timeout, k)) :
    measureRun ceiling samples (left + 1) m p = .timedOut m (p + k) := by
  rw [measureRun, h]

theorem le_consumed (ceiling : Nat) (samples : Nat → Level) (left m p : Nat) :
    p ≤ (measureRun ceiling samples left m p).consumed := by
  induction left generalizing m p with
  | zero => exact le_rfl
  | succ left ih =>
    obtain ⟨n, -, -, -, h⟩ | ⟨-, h⟩ := measureFn_cases ceiling (levelOfIndex m) samples p
    · rw [measureRun_of_count h, MeasureRun.consumed_cons]
      exact (Nat.le_add_right p _).trans (ih _ _)
    · rw [measureRun_of_timeout h]
      exact Nat.le_add_right p _

/-- A run that ends normally has a count for each measurement, and each measurement consumes 1 to `CEILING + 1`
samples. -/
theorem measureRun_counted {counts : List Nat} {k : Nat}
    (h : measureRun ceiling samples left m p = .counted counts k) :
    counts.length = left ∧ p + left ≤ k ∧ k ≤ p + left * (ceiling + 1) := by
  induction left generalizing m p counts with
  | zero =>
    obtain ⟨rfl, rfl⟩ := MeasureRun.counted.inj h
    simp
  | succ left ih =>
    obtain ⟨n, hn, -, -, hm⟩ | ⟨-, hm⟩ := measureFn_cases ceiling (levelOfIndex m) samples p
    · rw [measureRun_of_count hm] at h
      cases hrun : measureRun ceiling samples left (m + 1) (p + (n + 1)) with
      | timedOut number k' => rw [hrun] at h; cases h
      | counted counts' k' =>
        rw [hrun] at h
        obtain ⟨rfl, rfl⟩ := MeasureRun.counted.inj h
        obtain ⟨hlen, hge, hle⟩ := ih hrun
        rw [Nat.succ_mul]
        exact ⟨congrArg (· + 1) hlen, by omega, by omega⟩
    · rw [measureRun_of_timeout hm] at h
      cases h

/-- A measurement depends on the samples it consumes only. -/
theorem measureFn_congr {l : Level}
    (h : ∀ j, p ≤ j → j < p + (measureFn ceiling l samples p).2 → other j = samples j) :
    measureFn ceiling l other p = measureFn ceiling l samples p := by
  obtain ⟨n, hn, hmatch, hne, hm⟩ | ⟨hmatch, hm⟩ := measureFn_cases ceiling l samples p <;> rw [hm] at h ⊢
  · refine measureFn_eq_count (fun i hi => ?_) ?_ hn
    · rw [h _ (by omega) (by dsimp only; omega)]
      exact hmatch i hi
    · rwa [h _ (by omega) (by dsimp only; omega)]
  · refine measureFn_eq_timeout fun i hi => ?_
    rw [h _ (by omega) (by dsimp only; omega)]
    exact hmatch i hi

/-- A run of measurements depends on the samples it consumes only. -/
theorem measureRun_congr
    (h : ∀ j, p ≤ j → j < (measureRun ceiling samples left m p).consumed → other j = samples j) :
    measureRun ceiling other left m p = measureRun ceiling samples left m p := by
  induction left generalizing m p with
  | zero => rfl
  | succ left ih =>
    have hfirst : p + (measureFn ceiling (levelOfIndex m) samples p).2 ≤
        (measureRun ceiling samples (left + 1) m p).consumed →
        measureFn ceiling (levelOfIndex m) other p = measureFn ceiling (levelOfIndex m) samples p :=
      fun hle => measureFn_congr fun j hj hlt => h j hj (by omega)
    obtain ⟨n, -, -, -, hm⟩ | ⟨-, hm⟩ := measureFn_cases ceiling (levelOfIndex m) samples p
    · rw [measureRun_of_count hm, MeasureRun.consumed_cons] at h hfirst
      have hle := le_consumed ceiling samples left (m + 1) (p + (n + 1))
      rw [hm] at hfirst
      rw [measureRun_of_count hm, measureRun_of_count (hfirst hle), ih fun j hj hlt => h j (by omega) hlt]
    · rw [measureRun_of_timeout hm, hm] at hfirst
      rw [measureRun_of_timeout hm, measureRun_of_timeout (hfirst le_rfl)]

theorem readFn_of_timedOut {number k : Nat} (h : measureRun ceiling samples 82 0 0 = .timedOut number k) :
    readFn ceiling samples = { result := .timeout, measurement := none, consumed := k } := by
  rw [readFn, h]

/-- What a read reports whose measurements all end normally: the checksum test decides (41_protocol_engine.md R130). -/
theorem readFn_counted_cases {counts : List Nat} {k : Nat}
    (h : measureRun ceiling samples 82 0 0 = .counted counts k) :
    let f := decodeFrame (durationsOf counts)
    (checksumOk f = true ∧ readFn ceiling samples =
      { result := .success, measurement := some #v[f[0], f[1], f[2], f[3]], consumed := k }) ∨
    (checksumOk f = false ∧ readFn ceiling samples =
      { result := .checksumMismatch, measurement := none, consumed := k }) := by
  intro f
  rw [readFn, h]
  cases hok : checksumOk f
  · exact .inr ⟨rfl, if_neg (Bool.eq_false_iff.1 hok)⟩
  · exact .inl ⟨rfl, if_pos hok⟩

theorem readFn_consumed (ceiling : Nat) (samples : Nat → Level) :
    (readFn ceiling samples).consumed = (measureRun ceiling samples 82 0 0).consumed := by
  cases h : measureRun ceiling samples 82 0 0 with
  | timedOut number k => rw [readFn_of_timedOut h]; rfl
  | counted counts k => obtain ⟨-, hread⟩ | ⟨-, hread⟩ := readFn_counted_cases h <;> rw [hread] <;> rfl

theorem readFn_result_ne_timeout {counts : List Nat} {k : Nat}
    (h : measureRun ceiling samples 82 0 0 = .counted counts k) : (readFn ceiling samples).result ≠ .timeout := by
  obtain ⟨-, hread⟩ | ⟨-, hread⟩ := readFn_counted_cases h <;> rw [hread] <;> nofun

theorem readFn_congr (h : ∀ j, j < (readFn ceiling samples).consumed → other j = samples j) :
    readFn ceiling other = readFn ceiling samples := by
  rw [readFn_consumed] at h
  rw [readFn, readFn, measureRun_congr fun j _ hlt => h j hlt]

end Run

end Sys2Proof.Machine
end

section
/-! PROOFS. A read, tick by tick (41_protocol_engine.md R135, R136). The chain: the request holds for its ticks; each
measurement is then the count of its leading samples (`Counted`), and a run of measurements is `measureRun`; the eighty
durations are evaluated in two more ticks. -/

namespace Sys2Proof.Machine

/-! ### The stages of a read -/

/-- No Measurement is shown. -/
structure State.NoMeasurement (s : State) : Prop where
  measValid : s.measValid = false
  meas : s.meas = #v[0, 0, 0, 0]

/-- The number of measurements a read has finished, from `ACK_LOW` to `DECODE`. -/
def State.finished (s : State) : Option Nat :=
  match s.phase with
  | .ackLow => some 0
  | .ackHigh => some 1
  | .frame => some (s.measIdx.val + 2)
  | .decode => some 82
  | .idle | .reqLow | .reqHigh | .verify | .done => none

/-- The read has finished the measurements `counts`, the durations among them stored, and has counted `c` samples of the
next. -/
structure State.Counted (counts : List Nat) (c : Nat) (s : State) : Prop where
  finished : s.finished = some counts.length
  count : s.ptCount = c
  stored : ∀ i : Fin 80, i.val + 2 < counts.length → s.dur[i] = counts.getD (i.val + 2) 0
  ready : 2 ≤ counts.length → s.result = .responseReady
  noMeasurement : s.NoMeasurement

/-- The read waits for its checksum test with the frame `f`. -/
structure State.Verifying (f : Vector Byte 5) (s : State) : Prop where
  phase : s.phase = .verify
  frame : s.frame = f
  noMeasurement : s.NoMeasurement

/-- The read has ended with a result and a Measurement, or none. -/
structure State.Ended (r : ResultCode) (m : Option (Vector Byte 4)) (s : State) : Prop where
  phase : s.phase = .done
  result : s.result = r
  measValid : s.measValid = m.isSome
  meas : s.meas = m.getD #v[0, 0, 0, 0]

section Stages
variable {s t : State} {counts : List Nat} {c : Nat}

theorem State.finished_cases {m : Nat} (h : s.finished = some m) :
    (s.phase = .ackLow ∧ m = 0) ∨ (s.phase = .ackHigh ∧ m = 1) ∨ (s.phase = .frame ∧ m = s.measIdx.val + 2) ∨
      (s.phase = .decode ∧ m = 82) := by
  unfold State.finished at h
  cases hp : s.phase <;> simp_all

theorem levelOfIndex_add_two (n : Nat) : levelOfIndex (n + 2) = levelOfIndex n := by
  simp [levelOfIndex_eq]

/-- The measurement in progress expects the level of its number (30_encoding.md R79). -/
theorem State.measuring_of_finished {m : Nat} (h : s.finished = some m) (hm : m < 82) :
    measuring s.phase = true ∧ s.expectedLevel = levelOfIndex m := by
  obtain ⟨hp, rfl⟩ | ⟨hp, rfl⟩ | ⟨hp, rfl⟩ | ⟨-, rfl⟩ := State.finished_cases h
  · simp [State.expectedLevel, hp, measuring, levelOfIndex_eq]
  · simp [State.expectedLevel, hp, measuring, levelOfIndex_eq]
  · simp [State.expectedLevel, hp, measuring, levelOfIndex_add_two]
  · omega

theorem State.NoMeasurement.congr (h : s.SameBlock t) (hs : s.NoMeasurement) : t.NoMeasurement := by
  obtain ⟨_, _, _, _, _, _, rfl⟩ := h.eq_update
  exact ⟨hs.1, hs.2⟩

theorem State.Counted.congr (h : s.SameBlock t) (hs : s.Counted counts c) : t.Counted counts c := by
  obtain ⟨_, _, _, _, _, _, rfl⟩ := h.eq_update
  exact ⟨hs.1, hs.2, hs.3, hs.4, hs.5.congr h⟩

theorem State.Ended.congr {r : ResultCode} {m : Option (Vector Byte 4)} (h : s.SameBlock t) (hs : s.Ended r m) :
    t.Ended r m := by
  obtain ⟨_, _, _, _, _, _, rfl⟩ := h.eq_update
  exact ⟨hs.1, hs.2, hs.3, hs.4⟩

/-- Only `VERIFY` publishes a Measurement. -/
theorem State.NoMeasurement.tickNext (hs : s.NoMeasurement) (hr : s.now.rst = false) (hp : s.phase ≠ .verify) :
    (tickNext s).NoMeasurement := by
  refine State.NoMeasurement.congr (tickNext_sameBlock hr).symm ?_
  by_cases hacc : accepting s.phase = true
  · rw [phaseNext_of_accepting hacc, s.serveCommand_eq]
    split
    · exact ⟨rfl, rfl⟩
    · exact hs
  · rw [accepting_iff] at hacc
    obtain ⟨-, -, -, -, hwrites, -⟩ := phaseNext_writes s
    have hkept : (phaseNext s.phase s).meas = s.meas ∧ (phaseNext s.phase s).measValid = s.measValid := by
      by_contra hne
      exact (hwrites (not_and_or.1 hne)).elim (fun h => hacc (.inl h)) fun h => h.elim (fun h => hacc (.inr h)) hp
    exact ⟨hkept.2.trans hs.1, hkept.1.trans hs.2⟩

/-! ### One tick of a measurement -/

/-- A matching sample below the ceiling is counted. -/
theorem State.Counted.tickNext_continues (h : s.Counted counts c) (hlt : counts.length < 82)
    (hr : s.now.rst = false) (hpin : s.now.pinIn = levelOfIndex counts.length) (hc : c ≠ s.cfg.ceiling) :
    (tickNext s).Counted counts (c + 1) := by
  obtain ⟨hm, hlevel⟩ := State.measuring_of_finished h.finished hlt
  refine State.Counted.congr (tickNext_sameBlock hr).symm ?_
  rw [phaseNext_continues hm (hpin.trans hlevel.symm) (h.count ▸ hc)]
  exact ⟨h.finished, congrArg (· + 1) h.count, h.stored, h.ready, ⟨h.noMeasurement.1, h.noMeasurement.2⟩⟩

/-- A matching sample at the ceiling ends the read in Timeout. -/
theorem State.Counted.tickNext_timedOut (h : s.Counted counts c) (hlt : counts.length < 82)
    (hr : s.now.rst = false) (hpin : s.now.pinIn = levelOfIndex counts.length) (hc : c = s.cfg.ceiling) :
    (tickNext s).Ended .timeout none := by
  obtain ⟨hm, hlevel⟩ := State.measuring_of_finished h.finished hlt
  refine State.Ended.congr (tickNext_sameBlock hr).symm ?_
  rw [phaseNext_timedOut hm (hpin.trans hlevel.symm) (h.count.trans hc)]
  exact ⟨rfl, rfl, h.noMeasurement.1, h.noMeasurement.2⟩

/-- Storing the count of the measurement that ends keeps the stored durations those of the counts. -/
theorem State.Counted.stored_set (h : s.Counted counts c) (hidx : counts.length = s.measIdx.val + 2) (i : Fin 80)
    (hi : i.val + 2 < (counts ++ [c]).length) :
    (s.dur.set s.measIdx s.ptCount)[i] = (counts ++ [c]).getD (i.val + 2) 0 := by
  rw [List.length_append, List.length_singleton] at hi
  simp only [Fin.getElem_fin, Vector.getElem_set]
  obtain heq | hne := eq_or_ne s.measIdx.val i.val
  · rw [if_pos heq, List.getD_append_right _ _ _ _ (by omega), h.count]
    simp [show i.val + 2 - counts.length = 0 by omega]
  · rw [if_neg hne, List.getD_append _ _ _ _ (by omega)]
    exact h.stored i (by omega)

/-- A sample that differs ends the measurement with the count. -/
theorem State.Counted.tickNext_counted (h : s.Counted counts c) (hlt : counts.length < 82)
    (hr : s.now.rst = false) (hpin : s.now.pinIn ≠ levelOfIndex counts.length) :
    (tickNext s).Counted (counts ++ [c]) 0 := by
  refine State.Counted.congr (tickNext_sameBlock hr).symm ?_
  have hno := h.noMeasurement
  obtain ⟨hp, hlen⟩ | ⟨hp, hlen⟩ | ⟨hp, hlen⟩ | ⟨-, hlen⟩ := State.finished_cases h.finished
  · rw [hlen] at hpin
    rw [hp, phaseNext_ackLow_counted (Level.ne_low_iff.1 hpin)]
    refine ⟨by simp [State.finished, hlen], rfl, fun i hi => ?_, fun h2 => ?_, ⟨hno.1, hno.2⟩⟩
    · simp [hlen] at hi
    · simp [hlen] at h2
  · rw [hlen] at hpin
    rw [hp, phaseNext_ackHigh_counted (Level.ne_high_iff.1 hpin)]
    refine ⟨by simp [State.finished, hlen], rfl, fun i hi => ?_, fun _ => rfl, ⟨hno.1, hno.2⟩⟩
    simp [hlen] at hi
  · rw [hlen, levelOfIndex_add_two] at hpin
    have hready : s.result = .responseReady := h.ready (by omega)
    obtain h79 | h79 := lt_or_ge s.measIdx.val 79
    · rw [hp, phaseNext_frame_counted hpin h79]
      exact ⟨by simp [State.finished, hp, hlen], rfl, h.stored_set hlen, fun _ => hready, ⟨hno.1, hno.2⟩⟩
    · have hlast : s.measIdx.val = 79 := by omega
      rw [hp, phaseNext_frame_counted_last hpin hlast]
      exact ⟨by simp [State.finished, hlen, hlast], rfl, h.stored_set hlen, fun _ => hready, ⟨hno.1, hno.2⟩⟩
  · omega

/-! ### The evaluation -/

/-- The durations of a read that has finished its 82 measurements are those of the counts. -/
theorem State.Counted.dur_eq (h : s.Counted counts c) (hlen : counts.length = 82) : s.dur = durationsOf counts := by
  refine Vector.ext fun i hi => ?_
  rw [durationsOf, Vector.getElem_ofFn]
  exact h.stored ⟨i, hi⟩ (by dsimp only; omega)

theorem State.Counted.phase_eq_decode (h : s.Counted counts c) (hlen : counts.length = 82) : s.phase = .decode := by
  obtain ⟨-, hm⟩ | ⟨-, hm⟩ | ⟨-, hm⟩ | ⟨hp, -⟩ := State.finished_cases h.finished
  · omega
  · omega
  · omega
  · exact hp

theorem State.Counted.tickNext_decode (h : s.Counted counts c) (hlen : counts.length = 82) (hr : s.now.rst = false) :
    (tickNext s).Verifying (decodeFrame (durationsOf counts)) := by
  obtain ⟨-, hphase, -, -, -, -, hframe, hmeas, hvalid, -⟩ := tickNext_sameBlock hr
  rw [h.phase_eq_decode hlen, phaseNext_decode] at hphase hframe hmeas hvalid
  exact ⟨hphase, h.dur_eq hlen ▸ hframe, hvalid.trans h.noMeasurement.1, hmeas.trans h.noMeasurement.2⟩

theorem State.Verifying.tickNext {f : Vector Byte 5} (h : s.Verifying f) (hr : s.now.rst = false) :
    (checksumOk f = true → (tickNext s).Ended .success (some #v[f[0], f[1], f[2], f[3]])) ∧
    (checksumOk f = false → (tickNext s).Ended .checksumMismatch none) := by
  obtain ⟨hp, rfl, hno⟩ := h
  have hnext := (tickNext_sameBlock hr).symm
  rw [hp, phaseNext_verify] at hnext
  refine ⟨fun hok => State.Ended.congr hnext ?_, fun hfail => State.Ended.congr hnext ?_⟩
  · rw [if_pos hok]
    exact ⟨rfl, rfl, rfl, rfl⟩
  · rw [if_neg (Bool.eq_false_iff.1 hfail)]
    exact ⟨rfl, rfl, hno.1, hno.2⟩

end Stages

/-! ### Measurements in a row -/

/-- The samples of the line from the current tick on. -/
def State.samples (s : State) : Nat → Level := fun j => (s.inputAt j).pinIn

theorem samples_ticks (k : Nat) (s : State) : (ticks k s).samples = fun j => (s.inputAt (k + j)).pinIn := by
  funext j
  rw [State.samples, ticks_inputAt, Nat.add_comm]

/-- Where a run of measurements that follows `counts` leaves the block. -/
def State.RunEnds (s : State) (counts : List Nat) : MeasureRun → Prop
  | .counted more k => (ticks k s).Counted (counts ++ more) 0
  | .timedOut _ k => (ticks k s).Ended .timeout none

theorem State.runEnds_cons {s : State} {counts : List Nat} {n : Nat} {r : MeasureRun}
    (h : s.RunEnds (counts ++ [n]) r) : s.RunEnds counts (r.cons n) := by
  cases r with
  | counted more k => simpa [State.RunEnds, MeasureRun.cons] using h
  | timedOut number k => exact h

section Run
variable {s : State} {counts : List Nat} {p : Nat}

theorem tickNext_ticks_rst {n : Nat} (hr : s.NoReset (n + 1)) : (ticks n s).now.rst = false :=
  (noReset_ticks hr).now one_pos

/-- The samples that match, up to the ceiling, are counted one a tick. -/
theorem State.Counted.ticks_matches (h : (ticks p s).Counted counts 0) (hlt : counts.length < 82) {n : Nat}
    (hmatch : ∀ i, i < n → s.samples (p + i) = levelOfIndex counts.length) (hn : n ≤ s.cfg.ceiling)
    (hr : s.NoReset (p + n)) : (ticks (p + n) s).Counted counts n := by
  induction n with
  | zero => exact h
  | succ n ih =>
    have hprev := ih (fun i hi => hmatch i (by omega)) (by omega) (hr.mono (by omega))
    rw [← Nat.add_assoc, ticks_succ']
    refine hprev.tickNext_continues hlt (tickNext_ticks_rst hr) ?_ (by rw [ticks_cfg]; omega)
    rw [ticks_now]
    exact hmatch n n.lt_succ_self

/-- The block's ticks are `measureRun`: while the run lasts a measurement is in progress, and at its end the block has
its counts, or has failed in Timeout. -/
theorem State.Counted.run (left : Nat) (h : (ticks p s).Counted counts 0) (hlen : counts.length + left ≤ 82)
    (hr : s.NoReset (measureRun s.cfg.ceiling s.samples left counts.length p).consumed) :
    (∀ j, p ≤ j → j < (measureRun s.cfg.ceiling s.samples left counts.length p).consumed →
      ∃ cs c, cs.length < counts.length + left ∧ (ticks j s).Counted cs c) ∧
    s.RunEnds counts (measureRun s.cfg.ceiling s.samples left counts.length p) := by
  induction left generalizing counts p with
  | zero => exact ⟨fun j hj hlt => absurd hlt hj.not_gt, by simpa [State.RunEnds, measureRun] using h⟩
  | succ left ih =>
    have hlt : counts.length < 82 := by omega
    obtain ⟨n, hn, hmatch, hne, hm⟩ | ⟨hmatch, hm⟩ :=
      measureFn_cases s.cfg.ceiling (levelOfIndex counts.length) s.samples p
    · rw [measureRun_of_count hm, MeasureRun.consumed_cons] at hr ⊢
      have hle := le_consumed s.cfg.ceiling s.samples left (counts.length + 1) (p + (n + 1))
      have hcounting : ∀ i, i ≤ n → (ticks (p + i) s).Counted counts i := fun i hi =>
        h.ticks_matches hlt (fun i' hi' => hmatch i' (by omega)) (by omega) (hr.mono (by omega))
      have hnext : (ticks (p + (n + 1)) s).Counted (counts ++ [n]) 0 := by
        rw [← Nat.add_assoc, ticks_succ']
        refine (hcounting n le_rfl).tickNext_counted hlt (tickNext_ticks_rst (hr.mono (by omega))) ?_
        rw [ticks_now]
        exact hne
      have hlen' : (counts ++ [n]).length = counts.length + 1 := by simp
      obtain ⟨hduring, hends⟩ := ih hnext (by omega) (by rwa [hlen'])
      rw [hlen'] at hduring hends
      refine ⟨fun j hj hlt' => ?_, State.runEnds_cons hends⟩
      obtain hjn | hjn := lt_or_ge j (p + (n + 1))
      · refine ⟨counts, j - p, by omega, ?_⟩
        have hj' := hcounting (j - p) (by omega)
        rwa [Nat.add_sub_cancel' hj] at hj'
      · obtain ⟨cs, c, hcs, hj'⟩ := hduring j hjn hlt'
        exact ⟨cs, c, by omega, hj'⟩
    · rw [measureRun_of_timeout hm] at hr ⊢
      have hcounting : ∀ i, i ≤ s.cfg.ceiling → (ticks (p + i) s).Counted counts i := fun i hi =>
        h.ticks_matches hlt (fun i' hi' => hmatch i' (by omega)) hi (hr.mono (show _ ≤ p + _ by omega))
      refine ⟨fun j hj hlt' => ⟨counts, j - p, by omega, ?_⟩, ?_⟩
      · have hj' := hcounting (j - p) (by dsimp only [MeasureRun.consumed] at hlt'; omega)
        rwa [Nat.add_sub_cancel' hj] at hj'
      · show (ticks (p + s.cfg.ceiling + 1) s).Ended .timeout none
        rw [ticks_succ']
        refine (hcounting _ le_rfl).tickNext_timedOut hlt (tickNext_ticks_rst hr) ?_ (by rw [ticks_cfg])
        rw [ticks_now]
        exact hmatch _ le_rfl

end Run

/-! ### The request -/

/-- The tick of the first sample of a read, counted from the one that accepts it (41_protocol_engine.md R136). -/
def State.firstSample (s : State) : Nat := s.cfg.reqLowTicks + s.cfg.reqHighTicks + 1

/-- A read is in progress: not done, and no Measurement shown. -/
structure State.Reading (s : State) : Prop where
  busy : s.busy = true
  noMeasurement : s.NoMeasurement

theorem State.Reading.doneOut {s : State} (h : s.Reading) : s.doneOut = false := by
  obtain ⟨-, hp⟩ := s.busy_iff.1 h.busy
  exact decide_eq_false hp

section Read
variable {s : State} (ha : s.Accepts) (hlow : 1 ≤ s.cfg.reqLowTicks) (hhigh : 1 ≤ s.cfg.reqHighTicks)
include ha hlow hhigh

/-- The request phases of an accepted read, each held for its ticks, and the first state of `ACK_LOW`. -/
theorem State.Accepts.request (hr : s.NoReset s.firstSample) :
    (∀ n, 1 ≤ n → n ≤ s.cfg.reqLowTicks → (ticks n s).phase = .reqLow) ∧
    (∀ n, s.cfg.reqLowTicks + 1 ≤ n → n < s.firstSample → (ticks n s).phase = .reqHigh) ∧
    (ticks s.firstSample s).phase = .ackLow ∧ (ticks s.firstSample s).ptCount = 0 := by
  unfold State.firstSample at hr ⊢
  obtain ⟨-, hphase, hdelay, -⟩ := ha.tickNext_sameBlock
  obtain ⟨-, -, -, holdLow⟩ := requestLowHoldsItsTicks
  obtain ⟨-, -, -, holdHigh⟩ := requestHighHoldsItsTicks
  obtain ⟨hin, t, ht, htp, htd⟩ := holdLow (tickNext s) (by rwa [tickNext_cfg]) hphase hdelay
    (noReset_ticks (k := 1) (hr.mono (by rw [tickNext_cfg]; omega)))
  rw [after_iff, tickNext_cfg] at ht
  rw [tickNext_cfg] at hin
  subst ht
  obtain ⟨hin', t, ht, htp', -, htc, -⟩ := holdHigh _ (by simpa using hhigh) htp htd (by
    rw [← ticks_succ]
    exact noReset_ticks (hr.mono (by simp only [ticks_cfg]; omega)))
  rw [after_iff, ticks_cfg, tickNext_cfg, ← ticks_succ, ← ticks_add] at ht
  rw [ticks_cfg, tickNext_cfg] at hin'
  subst ht
  refine ⟨fun n h1 hn => ?_, fun n h1 hn => ?_, ?_, ?_⟩
  · obtain ⟨k, rfl⟩ := Nat.exists_eq_add_of_le' h1
    obtain ⟨t, ht, hp, -⟩ := hin k hn
    rwa [after_iff.1 ht] at hp
  · obtain ⟨k, rfl⟩ := Nat.exists_eq_add_of_le h1
    obtain ⟨t, ht, hp, -⟩ := hin' k (by omega)
    rwa [after_iff.1 ht, ← ticks_succ, ← ticks_add] at hp
  · rwa [Nat.add_right_comm]
  · rwa [Nat.add_right_comm]

theorem State.Accepts.requesting (hr : s.NoReset s.firstSample) {n : Nat} (h1 : 1 ≤ n) (hn : n < s.firstSample) :
    (ticks n s).phase = .reqLow ∨ (ticks n s).phase = .reqHigh := by
  obtain ⟨hin, hin', -, -⟩ := ha.request hlow hhigh hr
  obtain h | h := Nat.lt_or_ge s.cfg.reqLowTicks n
  · exact .inr (hin' n h hn)
  · exact .inl (hin n h1 h)

theorem State.Accepts.noMeasurement (hr : s.NoReset s.firstSample) {n : Nat} (h1 : 1 ≤ n) (hn : n ≤ s.firstSample) :
    (ticks n s).NoMeasurement := by
  induction n, h1 using Nat.le_induction with
  | base =>
    obtain ⟨-, -, -, -, -, -, -, hmeas, hvalid, -⟩ := ha.tickNext_sameBlock
    exact ⟨hvalid, hmeas⟩
  | succ n h1 ih =>
    rw [ticks_succ']
    refine (ih (by omega)).tickNext (tickNext_ticks_rst (hr.mono hn)) ?_
    obtain hp | hp := ha.requesting hlow hhigh hr h1 hn <;> rw [hp] <;> decide

theorem State.Accepts.reading (hr : s.NoReset s.firstSample) {n : Nat} (h1 : 1 ≤ n) (hn : n < s.firstSample) :
    (ticks n s).Reading := by
  refine ⟨(State.busy_iff _).2 ?_, ha.noMeasurement hlow hhigh hr h1 hn.le⟩
  obtain hp | hp := ha.requesting hlow hhigh hr h1 hn <;> simp [hp]

/-- At its first sample a read has finished no measurement. -/
theorem State.Accepts.counted (hr : s.NoReset s.firstSample) : (ticks s.firstSample s).Counted [] 0 := by
  obtain ⟨-, -, hp, hc⟩ := ha.request hlow hhigh hr
  exact ⟨by simp [State.finished, hp], hc, nofun, nofun,
    ha.noMeasurement hlow hhigh hr (Nat.succ_pos _) le_rfl⟩

end Read

end Sys2Proof.Machine
end

section
/-! PROOFS. Whole reads: the request, the measurements and the evaluation put together (41_protocol_engine.md R135,
R136; 70_reset_and_hazards.md R186). -/

namespace Sys2Proof.Machine

theorem State.Counted.reading {s : State} {counts : List Nat} {c : Nat} (h : s.Counted counts c) : s.Reading := by
  refine ⟨(State.busy_iff _).2 ?_, h.noMeasurement⟩
  obtain ⟨hp, -⟩ | ⟨hp, -⟩ | ⟨hp, -⟩ | ⟨hp, -⟩ := State.finished_cases h.finished <;> simp [hp]

theorem State.Verifying.reading {s : State} {f : Vector Byte 5} (h : s.Verifying f) : s.Reading :=
  ⟨(State.busy_iff _).2 (by simp [h.phase]), h.noMeasurement⟩

section Read
variable {s : State} (ha : s.Accepts) (hlow : 1 ≤ s.cfg.reqLowTicks) (hhigh : 1 ≤ s.cfg.reqHighTicks)
include ha hlow hhigh

/-- The first `left` measurements of an accepted read are `measureRun` of its samples. -/
theorem State.Accepts.run {left : Nat} (hleft : left ≤ 82) {r : MeasureRun}
    (hrun : measureRun s.cfg.ceiling (fun j => (s.inputAt (s.firstSample + j)).pinIn) left 0 0 = r)
    (hr : s.NoReset (s.firstSample + r.consumed)) :
    (∀ n, s.firstSample ≤ n → n < s.firstSample + r.consumed →
      ∃ cs c, cs.length < left ∧ (ticks n s).Counted cs c) ∧
    (ticks s.firstSample s).RunEnds [] r := by
  have h0 : (ticks 0 (ticks s.firstSample s)).Counted [] 0 := ha.counted hlow hhigh (hr.mono (Nat.le_add_right _ _))
  rw [← samples_ticks, ← ticks_cfg s.firstSample s] at hrun
  obtain ⟨hduring, hends⟩ := h0.run left (by simpa using hleft) (by
    rw [List.length_nil, hrun]
    exact noReset_ticks hr)
  rw [List.length_nil, hrun] at hduring hends
  refine ⟨fun n hn hlt => ?_, hends⟩
  obtain ⟨j, rfl⟩ := Nat.exists_eq_add_of_le hn
  obtain ⟨cs, c, hcs, hj⟩ := hduring j (Nat.zero_le j) (by omega)
  rw [ticks_add]
  exact ⟨cs, c, by simpa using hcs, hj⟩

/-- Up to the end of its measurements a read is in progress. -/
theorem State.Accepts.reading_run {left : Nat} (hleft : left ≤ 82) {r : MeasureRun}
    (hrun : measureRun s.cfg.ceiling (fun j => (s.inputAt (s.firstSample + j)).pinIn) left 0 0 = r)
    (hr : s.NoReset (s.firstSample + r.consumed)) {n : Nat} (h1 : 1 ≤ n) (hn : n < s.firstSample + r.consumed) :
    (ticks n s).Reading := by
  obtain hreq | hmeas := lt_or_ge n s.firstSample
  · exact ha.reading hlow hhigh (hr.mono (Nat.le_add_right _ _)) h1 hreq
  · obtain ⟨cs, c, -, hc⟩ := (ha.run hlow hhigh hleft hrun hr).1 n hmeas hn
    exact hc.reading

/-- A read whose measurements all end normally: it is in progress up to the two ticks of its evaluation, and then ends
with what `readFn` reports. -/
theorem State.Accepts.evaluates {counts : List Nat} {k : Nat}
    (hrun : measureRun s.cfg.ceiling (fun j => (s.inputAt (s.firstSample + j)).pinIn) 82 0 0 = .counted counts k)
    (hr : s.NoReset (s.firstSample + k + 2)) :
    (ticks (s.firstSample + k) s).phase = .decode ∧
    (ticks (s.firstSample + k + 1) s).Verifying (decodeFrame (durationsOf counts)) ∧
    (∀ n, 1 ≤ n → n < s.firstSample + k + 2 → (ticks n s).Reading) ∧
    (ticks (s.firstSample + k + 2) s).Ended
      (readFn s.cfg.ceiling fun j => (s.inputAt (s.firstSample + j)).pinIn).result
      (readFn s.cfg.ceiling fun j => (s.inputAt (s.firstSample + j)).pinIn).measurement := by
  have hr' : s.NoReset (s.firstSample + k) := hr.mono (by omega)
  obtain ⟨hlen, -, -⟩ := measureRun_counted hrun
  obtain ⟨-, hends⟩ := ha.run hlow hhigh le_rfl hrun hr'
  have hcounted : (ticks (s.firstSample + k) s).Counted counts 0 := by
    rw [ticks_add]
    exact hends
  have hverifying : (ticks (s.firstSample + k + 1) s).Verifying (decodeFrame (durationsOf counts)) := by
    rw [ticks_succ']
    exact hcounted.tickNext_decode hlen (tickNext_ticks_rst (hr.mono (by omega)))
  refine ⟨hcounted.phase_eq_decode hlen, hverifying, fun n h1 hn => ?_, ?_⟩
  · obtain hlt | rfl | rfl : n < s.firstSample + k ∨ n = s.firstSample + k ∨ n = s.firstSample + k + 1 := by omega
    · exact ha.reading_run hlow hhigh le_rfl hrun hr' h1 hlt
    · exact hcounted.reading
    · exact hverifying.reading
  · obtain ⟨hsuccess, hmismatch⟩ := hverifying.tickNext (tickNext_ticks_rst hr)
    rw [ticks_succ']
    obtain ⟨hok, hread⟩ | ⟨hfail, hread⟩ := readFn_counted_cases hrun <;> rw [hread]
    · exact hsuccess hok
    · exact hmismatch hfail

/-- A read one of whose measurements times out ends at its last sample. -/
theorem State.Accepts.timesOut {number k : Nat}
    (hrun : measureRun s.cfg.ceiling (fun j => (s.inputAt (s.firstSample + j)).pinIn) 82 0 0 = .timedOut number k)
    (hr : s.NoReset (s.firstSample + k)) : (ticks (s.firstSample + k) s).Ended .timeout none := by
  obtain ⟨-, hends⟩ := ha.run hlow hhigh le_rfl hrun hr
  rw [ticks_add]
  exact hends

end Read

theorem State.Ended.doneOut {s : State} {r : ResultCode} {m : Option (Vector Byte 4)} (h : s.Ended r m) :
    s.doneOut = true := s.doneOut_iff.2 h.phase

/-- Settles O51: up to its first sample a read is in its request. -/
theorem noReadEndsBeforeItsFirstSample : Obligations.NoReadEndsBeforeItsFirstSample := by
  intro s t k ha hlow hhigh hr h1 hk ht
  obtain rfl := after_iff.1 ht
  have hr' : s.NoReset s.firstSample := hr.mono (Nat.le_succ _)
  have hreading : (ticks k s).Reading := by
    obtain hlt | rfl := Nat.lt_or_eq_of_le (show k ≤ s.firstSample from Nat.le_of_lt_succ hk)
    · exact ha.reading hlow hhigh hr' h1 hlt
    · exact (ha.counted hlow hhigh hr').reading
  exact ⟨hreading.doneOut, hreading.busy⟩

/-- Settles O49: the stages of a read at their ticks. -/
theorem readPhasesStandAtTheirTicks : Obligations.ReadPhasesStandAtTheirTicks := by
  intro s ha hlow hhigh first samples
  refine ⟨fun hr n t ht => ?_, fun counts k2 hrun hr n t ht => ?_, fun counts k hrun hr n t ht => ?_,
    fun number k hrun hr n t ht => ?_⟩ <;> obtain rfl := after_iff.1 ht
  · obtain ⟨hin, hin', hp, hc⟩ := ha.request hlow hhigh hr
    exact ⟨hin n, hin' n, fun hn => hn ▸ ⟨hp, hc⟩⟩
  · obtain ⟨hlen, -, -⟩ := measureRun_counted hrun
    obtain ⟨hduring, hends⟩ := ha.run hlow hhigh (by decide) hrun hr
    refine ⟨fun h1 hn => Bool.eq_false_iff.2 fun hrvalid => ?_, ?_⟩
    · rw [State.rvalid_iff] at hrvalid
      obtain hlt | hge := lt_or_ge n s.firstSample
      · obtain hp | hp := ha.requesting hlow hhigh (hr.mono (Nat.le_add_right _ _)) h1 hlt <;> simp [hp] at hrvalid
      · obtain ⟨cs, c, hcs, hcounted⟩ := hduring n hge hn
        obtain ⟨hp, -⟩ | ⟨hp, -⟩ | ⟨-, hm⟩ | ⟨-, hm⟩ := State.finished_cases hcounted.finished
        · simp [hp] at hrvalid
        · simp [hp] at hrvalid
        · omega
        · omega
    · rintro rfl
      have hcounted : (ticks (s.firstSample + k2) s).Counted counts 0 := by
        rw [ticks_add]
        exact hends
      have hp : (ticks (s.firstSample + k2) s).phase = .frame := by
        obtain ⟨-, hm⟩ | ⟨-, hm⟩ | ⟨hp, -⟩ | ⟨-, hm⟩ := State.finished_cases hcounted.finished
        · omega
        · omega
        · exact hp
        · omega
      exact ⟨(State.rvalid_iff _).2 (.inl hp), hcounted.ready hlen.ge, hp⟩
  · obtain ⟨hdecode, hverifying, hreading, hended⟩ := ha.evaluates hlow hhigh hrun hr
    refine ⟨?_, ?_, ?_, fun h1 hn => (hreading n h1 hn).doneOut⟩ <;> rintro rfl
    · exact hdecode
    · exact hverifying.phase
    · exact hended.doneOut
  · refine ⟨?_, fun h1 hn => (ha.reading_run hlow hhigh le_rfl hrun hr h1 hn).doneOut⟩
    rintro rfl
    have hended := ha.timesOut hlow hhigh hrun hr
    exact ⟨hended.doneOut, hended.result⟩

/-- Settles O48: the two ways a run of measurements ends, with `readFn` evaluated in each. -/
theorem readGivesWhatReadFnGives : Obligations.ReadGivesWhatReadFnGives := by
  intro s ha hlow hhigh first samples r last
  refine ⟨fun other hsame => readFn_congr hsame, ?_⟩
  cases hrun : measureRun s.cfg.ceiling samples 82 0 0 with
  | timedOut number k =>
    have hread : r = { result := .timeout, measurement := none, consumed := k } := readFn_of_timedOut hrun
    have hlast : last = first + k := by simp [last, hread]
    rw [hlast, hread]
    refine ⟨fun h => absurd rfl h, fun hr => ⟨?_, fun n t h1 hn ht => ?_⟩⟩
    · have hended := ha.timesOut hlow hhigh hrun hr
      exact ⟨_, after_iff.2 rfl, hended.doneOut, hended.result, hended.measValid, hended.meas⟩
    · obtain rfl := after_iff.1 ht
      have hreading := ha.reading_run hlow hhigh le_rfl hrun hr h1 hn
      exact ⟨hreading.doneOut, hreading.noMeasurement.measValid⟩
  | counted counts k =>
    obtain ⟨-, hge, hle⟩ := measureRun_counted hrun
    have hconsumed : r.consumed = k := by rw [readFn_consumed, hrun]; rfl
    have hresult : r.result ≠ .timeout := readFn_result_ne_timeout hrun
    have hlast : last = first + k + 2 := by simp [last, hconsumed, hresult]
    rw [hlast, hconsumed]
    refine ⟨fun _ => ⟨by omega, by omega⟩, fun hr => ?_⟩
    obtain ⟨-, -, hreading, hended⟩ := ha.evaluates hlow hhigh hrun hr
    refine ⟨⟨_, after_iff.2 rfl, hended.doneOut, hended.result, hended.measValid, hended.meas⟩, fun n t h1 hn ht => ?_⟩
    obtain rfl := after_iff.1 ht
    exact ⟨(hreading n h1 hn).doneOut, (hreading n h1 hn).noMeasurement.measValid⟩

end Sys2Proof.Machine
end

section
/-! PROOFS. A read ends within its bound (70_reset_and_hazards.md R192): the ticks it may still take, by the phase it is
in, go down at every tick without reset. -/

namespace Sys2Proof.Machine

/-- The samples the measurements may still take with `m` of the 82 finished and `pt_count` samples counted. -/
def State.samplesLeft (s : State) (m : Nat) : Nat := (81 - m) * (s.cfg.ceiling + 1) + (s.cfg.ceiling + 1 - s.ptCount)

/-- The ticks a read may still take. -/
def State.ticksLeft (s : State) : Nat :=
  match s.phase with
  | .idle | .done => 0
  | .reqLow => (s.cfg.reqLowTicks - s.delayCnt) + s.cfg.reqHighTicks + 82 * (s.cfg.ceiling + 1) + 2
  | .reqHigh => (s.cfg.reqHighTicks - s.delayCnt) + 82 * (s.cfg.ceiling + 1) + 2
  | .ackLow => s.samplesLeft 0 + 2
  | .ackHigh => s.samplesLeft 1 + 2
  | .frame => s.samplesLeft (s.measIdx.val + 2) + 2
  | .decode => 2
  | .verify => 1

section Rank
variable {s : State}

theorem State.samplesLeft_le (s : State) (m : Nat) : s.samplesLeft m ≤ 82 * (s.cfg.ceiling + 1) := by
  have hmul : (81 - m) * (s.cfg.ceiling + 1) ≤ 81 * (s.cfg.ceiling + 1) := Nat.mul_le_mul_right _ (Nat.sub_le 81 m)
  unfold State.samplesLeft
  omega

theorem State.ticksLeft_le (s : State) :
    s.ticksLeft ≤ s.cfg.reqLowTicks + s.cfg.reqHighTicks + 82 * (s.cfg.ceiling + 1) + 2 := by
  have h0 := s.samplesLeft_le 0
  have h1 := s.samplesLeft_le 1
  have h2 := s.samplesLeft_le (s.measIdx.val + 2)
  unfold State.ticksLeft
  split <;> omega

theorem State.accepting_of_ticksLeft (h : s.ticksLeft = 0) : accepting s.phase = true := by
  unfold State.ticksLeft at h
  cases hp : s.phase <;> simp [hp, accepting] at h ⊢

theorem State.ticksLeft_congr {t : State} (h : s.SameBlock t) : s.ticksLeft = t.ticksLeft := by
  obtain ⟨_, _, _, _, _, _, rfl⟩ := h.eq_update
  rfl

/-- A finished measurement leaves the samples of the ones after it. -/
theorem State.samplesLeft_succ_lt {t : State} {m : Nat} (hm : m < 81) (hcfg : t.cfg = s.cfg) (ht : t.ptCount = 0)
    (hc : s.ptCount ≤ s.cfg.ceiling) : t.samplesLeft (m + 1) < s.samplesLeft m := by
  have hmul : (81 - m) * (s.cfg.ceiling + 1) = (81 - (m + 1)) * (s.cfg.ceiling + 1) + (s.cfg.ceiling + 1) := by
    rw [← Nat.succ_mul]
    congr 1
    omega
  unfold State.samplesLeft
  rw [hcfg, ht, hmul]
  omega

theorem State.samplesLeft_count_lt {t : State} {m : Nat} (hcfg : t.cfg = s.cfg) (ht : t.ptCount = s.ptCount + 1)
    (hc : s.ptCount ≤ s.cfg.ceiling) : t.samplesLeft m < s.samplesLeft m := by
  unfold State.samplesLeft
  rw [hcfg, ht]
  omega

variable (hi : s.Inv) (hlow : 1 ≤ s.cfg.reqLowTicks) (hhigh : 1 ≤ s.cfg.reqHighTicks)
include hi hlow hhigh

/-- The block's part of a tick of a read uses up one of the ticks left. -/
theorem State.ticksLeft_phaseNext_lt (hp : ¬ accepting s.phase = true) :
    (phaseNext s.phase s).ticksLeft < s.ticksLeft := by
  rw [accepting_iff] at hp
  obtain ⟨h, -⟩ | ⟨h, -⟩ | ⟨hp, hd, hn⟩ | ⟨hp, hd, hn⟩ | ⟨hp, hd, hn⟩ | ⟨hp, hd, hn⟩ | ⟨hp, -, hn⟩ |
    ⟨hp, -, hn⟩ | ⟨h79, hp, -, hn⟩ | ⟨hp, h79, -, hn⟩ | ⟨hm, -, -, hn⟩ | ⟨hm, -, -, hn⟩ | ⟨hp, hn⟩ |
    ⟨hp, -, hn⟩ | ⟨hp, -, hn⟩ := phaseNext_cases s
  · exact absurd h hp
  · exact absurd h hp
  -- the request
  · rw [hn]
    simp only [State.ticksLeft, hp]
    omega
  · have hdelay := hi.delay.1 hp
    rw [hn]
    simp only [State.ticksLeft, hp]
    omega
  · have hleft : (phaseNext s.phase s).samplesLeft 0 ≤ 82 * (s.cfg.ceiling + 1) := by
      rw [← phaseNext_cfg s.phase s]
      exact State.samplesLeft_le _ 0
    rw [hn] at hleft ⊢
    simp only [State.ticksLeft, hp]
    omega
  · have hdelay := hi.delay.2.1 hp
    rw [hn]
    simp only [State.ticksLeft, hp]
    omega
  -- the end of a measurement
  · have hleft : (phaseNext s.phase s).samplesLeft 1 < s.samplesLeft 0 :=
      State.samplesLeft_succ_lt (by decide) (phaseNext_cfg _ _) (by rw [hn]) (hi.ptCount_le (hp ▸ rfl))
    rw [hn] at hleft ⊢
    simpa only [State.ticksLeft, hp, Nat.add_lt_add_iff_right] using hleft
  · have hleft : (phaseNext s.phase s).samplesLeft 2 < s.samplesLeft 1 :=
      State.samplesLeft_succ_lt (by decide) (phaseNext_cfg _ _) (by rw [hn]; rfl) (hi.ptCount_le (hp ▸ rfl))
    rw [hn] at hleft ⊢
    simpa [State.ticksLeft, hp] using hleft
  · have hleft : (phaseNext s.phase s).samplesLeft (s.measIdx.val + 2 + 1) < s.samplesLeft (s.measIdx.val + 2) :=
      State.samplesLeft_succ_lt (by omega) (phaseNext_cfg _ _) (by rw [hn]) (hi.ptCount_le (hp ▸ rfl))
    rw [hn] at hleft ⊢
    simpa [State.ticksLeft, hp, Nat.add_right_comm _ 1 2] using hleft
  · have hcount := hi.ptCount_le (hp ▸ rfl)
    rw [hn]
    simp only [State.ticksLeft, hp, State.samplesLeft]
    omega
  · rw [hn]
    obtain hp | hp | hp := (measuring_iff s.phase).1 hm <;> simp [State.ticksLeft, hp]
  · have hleft : ∀ m, (phaseNext s.phase s).samplesLeft m < s.samplesLeft m := fun m =>
      State.samplesLeft_count_lt (phaseNext_cfg _ _) (by rw [hn]) (hi.ptCount_le hm)
    rw [hn] at hleft ⊢
    obtain hp | hp | hp := (measuring_iff s.phase).1 hm <;>
      simpa only [State.ticksLeft, hp, Nat.add_lt_add_iff_right] using hleft _
  -- the evaluation
  · rw [hn]
    simp [State.ticksLeft, hp]
  · rw [hn]
    simp [State.ticksLeft, hp]
  · rw [hn]
    simp [State.ticksLeft, hp]

/-- From any phase but `IDLE` the block reaches `DONE` within the ticks left. -/
theorem State.Inv.exists_ticks_done {n : Nat} (hp : s.phase ≠ .idle) (hn : s.ticksLeft ≤ n) (hr : s.NoReset n) :
    ∃ k, k ≤ n ∧ (ticks k s).phase = .done := by
  by_cases hacc : accepting s.phase = true
  · exact ⟨0, Nat.zero_le n, ((accepting_iff _).1 hacc).resolve_left hp⟩
  · induction n generalizing s with
    | zero => exact absurd (State.accepting_of_ticksLeft (Nat.le_zero.1 hn)) hacc
    | succ n ih =>
      have hrst : s.now.rst = false := hr.now n.succ_pos
      have hlt : (Machine.tickNext s).ticksLeft < s.ticksLeft :=
        (State.ticksLeft_congr (tickNext_sameBlock hrst)).trans_lt (State.ticksLeft_phaseNext_lt hi hlow hhigh hacc)
      have hp' : (Machine.tickNext s).phase ≠ .idle := tickNext_phase_ne_idle hrst hp
      by_cases hacc' : accepting (Machine.tickNext s).phase = true
      · exact ⟨1, by omega, ((accepting_iff _).1 hacc').resolve_left hp'⟩
      · obtain ⟨k, hk, hdone⟩ := ih hi.tickNext (by rwa [tickNext_cfg]) (by rwa [tickNext_cfg]) hp' (by omega)
          (noReset_ticks (k := 1) (by rwa [Nat.add_comm])) hacc'
        exact ⟨k + 1, by omega, hdone⟩

end Rank

/-- Settles O50: the ticks left are below the bound in every state, the accepting tick being one more. -/
theorem readEndsWithinItsBound : Obligations.ReadEndsWithinItsBound := by
  intro s hi hlow hhigh bound hr
  refine ⟨fun ha => ?_, ?_, fun t hp hstart ht => ?_⟩
  · obtain ⟨-, hphase, -⟩ := ha.tickNext_sameBlock
    have hle := (tickNext s).ticksLeft_le
    rw [tickNext_cfg] at hle
    obtain ⟨k, hk, hdone⟩ := State.Inv.exists_ticks_done hi.tickNext (by rwa [tickNext_cfg]) (by rwa [tickNext_cfg])
      (by simp [hphase]) hle (noReset_ticks (k := 1) (hr.mono (by omega)))
    exact ⟨k + 1, _, by omega, by omega, after_iff.2 rfl, (State.doneOut_iff _).2 hdone⟩
  · by_cases hp : s.phase = .idle
    · exact ⟨0, s, Nat.zero_le _, after_iff.2 rfl, .inl hp⟩
    · obtain ⟨k, hk, hdone⟩ := hi.exists_ticks_done hlow hhigh hp (s.ticksLeft_le.trans (Nat.le_succ _)) hr
      exact ⟨k, _, hk, after_iff.2 rfl, .inr hdone⟩
  · obtain rfl := tickNext_of_step ht
    obtain ⟨-, hphase, -⟩ := tickNext_sameBlock_of_no_start ((accepting_iff _).2 hp) (hr.now (Nat.succ_pos _)) hstart
    exact hphase

end Sys2Proof.Machine
end

section
/-! PROOFS. Nothing of an earlier read shows in a later one (41_protocol_engine.md R137). Two blocks that have accepted
a read agree on all that is shown or counted, and on a register left from before as soon as the read has written it: the
counter while it measures, the durations it has stored, the frame it has decoded. -/

namespace Sys2Proof.Machine

/-- The two states agree on what the read in progress depends on. -/
structure State.SameRead (s s' : State) : Prop where
  cfg : s.cfg = s'.cfg
  phase : s.phase = s'.phase
  delayCnt : s.delayCnt = s'.delayCnt
  measIdx : s.measIdx = s'.measIdx
  meas : s.meas = s'.meas
  measValid : s.measValid = s'.measValid
  result : s.result = s'.result
  count : measuring s.phase = true → s.ptCount = s'.ptCount
  stored : s.phase = .frame → ∀ i : Fin 80, i.val < s.measIdx.val → s.dur[i] = s'.dur[i]
  dur : s.phase = .decode → s.dur = s'.dur
  frame : s.phase = .verify → s.frame = s'.frame

section Relation
variable {s s' t t' : State}

/-- The second state differs from the first at most in what the read has not written yet, the unit, the inputs and the
tick. -/
theorem State.SameRead.eq_update (h : s.SameRead s') : ∃ port c d f b l u inputs tick, s' = { s with
    unitPort := port, ptCount := c, dur := d, frame := f, unitBusy := b, unitExp := l, unitCount := u,
    inputs := inputs, tick := tick } := by
  cases s; cases s'
  obtain ⟨h1, h2, h3, h4, h5, h6, h7, -, -, -, -⟩ := h
  dsimp only at *
  subst h1 h2 h3 h4 h5 h6 h7
  exact ⟨_, _, _, _, _, _, _, _, _, rfl⟩

theorem State.SameRead.congr (hs : s.SameBlock t) (hs' : s'.SameBlock t') (h : s.SameRead s') : t.SameRead t' := by
  obtain ⟨_, _, _, _, _, _, rfl⟩ := hs.eq_update
  obtain ⟨_, _, _, _, _, _, rfl⟩ := hs'.eq_update
  exact ⟨h.1, h.2, h.3, h.4, h.5, h.6, h.7, h.8, h.9, h.10, h.11⟩

theorem State.SameRead.outputs (h : s.SameRead s') : s.outputs = s'.outputs := by
  obtain ⟨_, _, _, _, _, _, _, _, _, rfl⟩ := h.eq_update
  rfl

/-- A measurement that ends stores the same count at the same index, so one duration more agrees. -/
theorem State.SameRead.stored_set (h : s.SameRead s') (hp : s.phase = .frame) (i : Fin 80)
    (hi : i.val < s.measIdx.val + 1) :
    (s.dur.set s.measIdx s.ptCount)[i] = (s'.dur.set s.measIdx s.ptCount)[i] := by
  simp only [Fin.getElem_fin, Vector.getElem_set]
  split
  · rfl
  · exact h.stored hp i (by omega)

/-- The micro-operation of a phase reads, of what is left from before, only what the read has written. -/
theorem State.SameRead.phaseNext (h : s.SameRead s') (hnow : s.now = s'.now) {p : Phase} (hp : s.phase = p) :
    (phaseNext p s).SameRead (phaseNext p s') := by
  have hset := h.stored_set
  obtain ⟨port, c, d, f, b, l, u, inputs, tick, rfl⟩ := h.eq_update
  obtain ⟨-, -, -, -, -, -, -, hcount, hstored, hdur, hframe⟩ := id h
  dsimp only at hset hcount hstored hdur hframe
  rw [hp] at hset hcount hstored hdur hframe
  cases p
  · rw [phaseNext_idle, phaseNext_idle, ← hnow]
    split
    · exact ⟨rfl, rfl, rfl, rfl, rfl, rfl, rfl, nofun, nofun, nofun, nofun⟩
    · exact h
  · rw [phaseNext_reqLow, phaseNext_reqLow]
    dsimp only
    split
    · exact ⟨rfl, rfl, rfl, rfl, rfl, rfl, rfl, nofun, nofun, nofun, nofun⟩
    · refine ⟨rfl, rfl, rfl, rfl, rfl, rfl, rfl, ?_, ?_, ?_, ?_⟩ <;> simp [hp, measuring]
  · rw [phaseNext_reqHigh, phaseNext_reqHigh]
    dsimp only
    split
    · exact ⟨rfl, rfl, rfl, rfl, rfl, rfl, rfl, fun _ => rfl, nofun, nofun, nofun⟩
    · refine ⟨rfl, rfl, rfl, rfl, rfl, rfl, rfl, ?_, ?_, ?_, ?_⟩ <;> simp [hp, measuring]
  · obtain rfl := hcount rfl
    rw [phaseNext_ackLow, phaseNext_ackLow, State.pinSample_eq, State.pinSample_eq, ← hnow]
    dsimp only
    split
    · exact ⟨rfl, rfl, rfl, rfl, rfl, rfl, rfl, fun _ => rfl, nofun, nofun, nofun⟩
    · split
      · exact ⟨rfl, rfl, rfl, rfl, rfl, rfl, rfl, nofun, nofun, nofun, nofun⟩
      · refine ⟨rfl, rfl, rfl, rfl, rfl, rfl, rfl, fun _ => rfl, ?_, ?_, ?_⟩ <;> simp [hp]
  · obtain rfl := hcount rfl
    rw [phaseNext_ackHigh, phaseNext_ackHigh, State.pinSample_eq, State.pinSample_eq, ← hnow]
    dsimp only
    split
    · exact ⟨rfl, rfl, rfl, rfl, rfl, rfl, rfl, fun _ => rfl, fun _ _ hi => absurd hi (Nat.not_lt_zero _), nofun, nofun⟩
    · split
      · exact ⟨rfl, rfl, rfl, rfl, rfl, rfl, rfl, nofun, nofun, nofun, nofun⟩
      · refine ⟨rfl, rfl, rfl, rfl, rfl, rfl, rfl, fun _ => rfl, ?_, ?_, ?_⟩ <;> simp [hp]
  · obtain rfl := hcount rfl
    rw [phaseNext_frame, phaseNext_frame, State.pinSample_eq, State.pinSample_eq, ← hnow]
    dsimp only
    split
    · by_cases h79 : s.measIdx.val < 79
      · rw [nextIndex_of_lt h79]
        exact ⟨rfl, rfl, rfl, rfl, rfl, rfl, rfl, fun _ => rfl, fun _ => hset rfl, by simp [hp], by simp [hp]⟩
      · rw [nextIndex_of_last h79]
        refine ⟨rfl, rfl, rfl, rfl, rfl, rfl, rfl, fun _ => rfl, nofun, fun _ => Vector.ext fun i hi => ?_, nofun⟩
        exact hset rfl ⟨i, hi⟩ (by dsimp only; omega)
    · split
      · exact ⟨rfl, rfl, rfl, rfl, rfl, rfl, rfl, nofun, nofun, nofun, nofun⟩
      · exact ⟨rfl, rfl, rfl, rfl, rfl, rfl, rfl, fun _ => rfl, fun _ => hstored rfl, by simp [hp], by simp [hp]⟩
  · obtain rfl := hdur rfl
    exact ⟨rfl, rfl, rfl, rfl, rfl, rfl, rfl, nofun, nofun, nofun, fun _ => rfl⟩
  · obtain rfl := hframe rfl
    rw [phaseNext_verify, phaseNext_verify]
    dsimp only
    split <;> exact ⟨rfl, rfl, rfl, rfl, rfl, rfl, rfl, nofun, nofun, nofun, nofun⟩
  · rw [phaseNext_done, phaseNext_done, ← hnow]
    split
    · exact ⟨rfl, rfl, rfl, rfl, rfl, rfl, rfl, nofun, nofun, nofun, nofun⟩
    · exact h

theorem State.SameRead.tickNext (h : s.SameRead s') (hnow : s.now = s'.now) :
    (tickNext s).SameRead (tickNext s') := by
  cases hr : s.now.rst
  case true =>
    rw [tickNext_rst hr, tickNext_rst (hnow ▸ hr)]
    exact ⟨h.cfg, rfl, rfl, rfl, rfl, rfl, rfl, fun _ => rfl, fun _ _ _ => rfl, fun _ => rfl, fun _ => rfl⟩
  case false =>
    have hnext := h.phaseNext hnow rfl
    have hblock := tickNext_sameBlock (hnow ▸ hr : s'.now.rst = false)
    rw [← h.phase] at hblock
    exact hnext.congr (tickNext_sameBlock hr).symm hblock.symm

/-- With the same inputs two states that agree on a read agree at every later tick. -/
theorem State.SameRead.ticks (h : s.SameRead s') (hin : ∀ j, s.inputAt j = s'.inputAt j) (k : Nat) :
    (ticks k s).SameRead (ticks k s') := by
  induction k with
  | zero => exact h
  | succ k ih =>
    rw [ticks_succ', ticks_succ']
    refine ih.tickNext ?_
    rw [ticks_now, ticks_now, hin]

/-- Two blocks with the same configuration agree on the read they accept. -/
theorem State.Accepts.sameRead (ha : s.Accepts) (ha' : s'.Accepts) (hcfg : s.cfg = s'.cfg) :
    (tickNext s).SameRead (tickNext s') := by
  have haccept : s.acceptRead.SameRead s'.acceptRead :=
    ⟨hcfg, rfl, rfl, rfl, rfl, rfl, rfl, nofun, nofun, nofun, nofun⟩
  exact haccept.congr ha.tickNext_sameBlock.symm ha'.tickNext_sameBlock.symm

end Relation

/-- Settles O52: the accepting tick makes the two blocks agree on the read, and the outputs show nothing else. -/
theorem nothingLeaksBetweenReads : Obligations.NothingLeaksBetweenReads := by
  intro s s' k hcfg ha ha' hin
  have hsame := (ha.sameRead ha' hcfg).ticks (fun j => by simp only [tickNext_inputAt, hin]) k
  exact ⟨_, _, after_iff.2 rfl, after_iff.2 rfl, hsame.outputs⟩

end Sys2Proof.Machine
end
